-- ==== Sys2Proof/Word.lean ====
section
/-! DEFINITION. The register word and the plainest arithmetic primitives of the block
(spec/00_scope.md R13 and R15; spec/44_toggler.md R99). All values are unsigned. -/

namespace Sys2Proof

/-- One register of the block: 32 bits, bit 0 least significant (R13, R41). -/
abbrev Word := BitVec 32

/-- One byte of a register laid out for a host (R43). -/
abbrev Byte := BitVec 8

/-- `udiv(a, b)`: the floor of a/b (R15). The only divisors of the block are the constants 1000. -/
abbrev udiv (a b : Nat) : Nat := a / b

/-- `umod(a, b)`: the remainder, in 0..b-1 for b >= 1 (R15). -/
abbrev umod (a b : Nat) : Nat := a % b

/-- `add_32(a, b)`: the sum modulo 2^32, with no flag, no saturation and no trap (R15, R99 (a)). -/
abbrev add32 (a b : Word) : Word := a + b

end Sys2Proof
end

