-- ==== Sys2Proof/Syntax.lean ====
section
/-! DEFINITION. The operations of the block, one constructor per row of spec/opcode_table.json
(spec/30_encoding.md R57). No operation takes an operand: every operand is a constant of the operation
(R60, R64), assembled in Machine/Operands.lean. -/

namespace Sys2Proof

/-- The ten operations of the sequencer, in the order of their codes, and the toggler's one (R57). -/
inductive Instr where
  /-- FWS.SET: write the wait-state count for the target frequency (R77). -/
  | fwsSet
  /-- FWS.WAIT: poll until the flash controller reports that count latched (R78). -/
  | fwsWait
  /-- OSC.ON: enable the high-speed internal oscillator (R82). -/
  | oscOn
  /-- OSC.WAIT: poll until its ready bit is 1 (R83). -/
  | oscWait
  /-- MUX.SEL: select the high-speed oscillator, both prescalers undivided (R85). -/
  | muxSel
  /-- MUX.WAIT: poll until the switch status names the high-speed oscillator (R86). -/
  | muxWait
  /-- TICK.LOAD: write the tick period in cycles (R89). -/
  | tickLoad
  /-- TICK.EN: enable the tick timer and its interrupt (R90). -/
  | tickEn
  /-- FREQ.REC: record the effective clock frequency (R91). -/
  | freqRec
  /-- IDLE: do nothing, for ever (R92). -/
  | idle
  /-- TGL.TICK: service one tick (R95). -/
  | tglTick
deriving DecidableEq, Repr

/-- The written form of an operation is its mnemonic (R64). -/
def Instr.mnemonic : Instr → String
  | .fwsSet => "FWS.SET"
  | .fwsWait => "FWS.WAIT"
  | .oscOn => "OSC.ON"
  | .oscWait => "OSC.WAIT"
  | .muxSel => "MUX.SEL"
  | .muxWait => "MUX.WAIT"
  | .tickLoad => "TICK.LOAD"
  | .tickEn => "TICK.EN"
  | .freqRec => "FREQ.REC"
  | .idle => "IDLE"
  | .tglTick => "TGL.TICK"

/-- Every operation, in table order (R57). -/
def Instr.all : List Instr :=
  [.fwsSet, .fwsWait, .oscOn, .oscWait, .muxSel, .muxWait, .tickLoad, .tickEn, .freqRec, .idle, .tglTick]

/-- The pseudo-operation `configure` names this sequence; each wait operation in it is executed one
or more times (R65). -/
def Instr.configure : List Instr :=
  [.fwsSet, .fwsWait, .oscOn, .oscWait, .muxSel, .muxWait, .tickLoad, .tickEn, .freqRec]

/-- The pseudo-operation `on_tick` is the single operation TGL.TICK (R65). -/
def Instr.onTick : List Instr := [.tglTick]

end Sys2Proof
end

