-- ==== Sys2Proof/Decode.lean ====
section
/-! DEFINITION. Decoding and encoding of the 5-bit operation id (spec/30_encoding.md R55, R57, R58,
R62). The id is `op[4:0]`: `op[4]` is the unit, `op[3:0]` the state code within the unit. An id laid out
in a byte stands in its low five bits (PRESUMED, notes/assumptions/12.md). -/

namespace Sys2Proof

/-- Why no operation is decoded. -/
inductive DecodeError where
  /-- There is no byte to read an id from. -/
  | noBytes
  /-- Ids 0x0A to 0x0F: sequencer state codes 10 to 15 (R62). -/
  | illegalSequencerCode (code : BitVec 4)
  /-- Ids 0x11 to 0x1F: the toggler has state code 0 only (R55, R62). -/
  | illegalTogglerCode (code : BitVec 4)
deriving DecidableEq, Repr

/-- A row of the operation table: an id matches when it equals `pattern` under `mask` (R58). -/
structure OpRow where
  pattern : BitVec 5
  mask : BitVec 5
  instr : Instr
deriving DecidableEq, Repr

/-- The operation table of R57; every row has mask 0x1F. -/
def opTable : List OpRow :=
  [⟨0x00#5, 0x1F#5, .fwsSet⟩, ⟨0x01#5, 0x1F#5, .fwsWait⟩, ⟨0x02#5, 0x1F#5, .oscOn⟩,
   ⟨0x03#5, 0x1F#5, .oscWait⟩, ⟨0x04#5, 0x1F#5, .muxSel⟩, ⟨0x05#5, 0x1F#5, .muxWait⟩,
   ⟨0x06#5, 0x1F#5, .tickLoad⟩, ⟨0x07#5, 0x1F#5, .tickEn⟩, ⟨0x08#5, 0x1F#5, .freqRec⟩,
   ⟨0x09#5, 0x1F#5, .idle⟩, ⟨0x10#5, 0x1F#5, .tglTick⟩]

/-- R58: compare the id with `match` under `mask`. -/
def OpRow.accepts (r : OpRow) (id : BitVec 5) : Bool := (id &&& r.mask) == r.pattern

/-- `op[4]` of an id: 0 the sequencer, 1 the toggler (R55). -/
def idUnit (id : BitVec 5) : BitVec 1 := id.extractLsb' 4 1

/-- `op[3:0]` of an id: the state code within the unit (R55). -/
def idCode (id : BitVec 5) : BitVec 4 := id.extractLsb' 0 4

/-- The id of a unit and a state code (R55). -/
def mkId (unit : BitVec 1) (code : BitVec 4) : BitVec 5 := unit ++ code

/-- R58, R62: the row that matches the id, or a rejection that names the unit and the code. -/
def decode (id : BitVec 5) : Except DecodeError Instr :=
  match opTable.find? fun r => r.accepts id with
  | some r => .ok r.instr
  | none =>
    if idUnit id = 0#1 then .error (.illegalSequencerCode (idCode id))
    else .error (.illegalTogglerCode (idCode id))

/-- Decoding from bytes: one byte holds one id, in its low five bits; the rest is handed back. -/
def decodeBytes : List Byte → Except DecodeError (Instr × List Byte)
  | [] => .error .noBytes
  | b :: rest =>
    match decode (b.extractLsb' 0 5) with
    | .ok i => .ok (i, rest)
    | .error e => .error e

/-- The id of each operation, from R57. -/
def encode : Instr → BitVec 5
  | .fwsSet => 0x00#5
  | .fwsWait => 0x01#5
  | .oscOn => 0x02#5
  | .oscWait => 0x03#5
  | .muxSel => 0x04#5
  | .muxWait => 0x05#5
  | .tickLoad => 0x06#5
  | .tickEn => 0x07#5
  | .freqRec => 0x08#5
  | .idle => 0x09#5
  | .tglTick => 0x10#5

/-- The id of an operation as a byte, its upper three bits 0. -/
def encodeBytes (i : Instr) : List Byte := [(encode i).setWidth 8]

/-- The low `n` bytes of `w`, the lowest first. -/
def littleBytes : Nat → Nat → List Byte
  | 0, _ => []
  | n + 1, w => BitVec.ofNat 8 w :: littleBytes n (w / 256)

/-- The operation the decoder reads from the table bits `w` of a row of `nbits` bits. The longest
operation is one byte long, so at least one byte is laid out. -/
def decodeTableWord (nbits w : Nat) : Option Instr :=
  match decodeBytes (littleBytes (max 1 ((nbits + 7) / 8)) (w % 2 ^ nbits)) with
  | .ok (i, _) => some i
  | .error _ => none

end Sys2Proof
end

