-- ==== Sys2Proof/Config.lean ====
section
/-! DEFINITION. What an instantiation of the block fixes (spec/00_scope.md R10 to R12), the moves a
schedule can choose (R7, R8, spec/60_exceptions.md R118), and the free values, each an opaque constant
with no body. The numbers of the reference instantiation are the spec's own (R11), not the source's. -/

namespace Sys2Proof.Config

/-- `TICK_RATE_HZ`, fixed by the source (R10). -/
def tickRateHz : Nat := 1000

/-- `TOGGLE_PERIOD`, fixed by the source (R10). -/
def togglePeriod : Nat := 1000

/-- The open parameters of R11, but for `PIN_RESET_LEVEL`, which is a free value drawn at each reset. -/
structure Params where
  /-- `TARGET_FREQUENCY_HZ`: the high-speed oscillator's frequency, in hertz. -/
  targetHz : Nat
  /-- `DEFAULT_FREQUENCY_HZ`: the reset-default low-speed oscillator's frequency, in hertz. -/
  defaultHz : Nat
  /-- `WS_TABLE`: pairs (f_max_hz, ws). -/
  wsTable : List (Nat × Nat)
  /-- `FLASH_LATCHES`: the flash controller does latch a requested count. -/
  flashLatches : Bool
  /-- `OSC_STARTS`: the high-speed oscillator does become ready after it is enabled. -/
  oscStarts : Bool
  /-- `MUX_SWITCHES`: the multiplexer does complete a requested switch. -/
  muxSwitches : Bool
  /-- `BASE` divided by 4: R11 makes `BASE` a 32-bit address that is a multiple of 4. -/
  baseWord : BitVec 30
deriving DecidableEq, Repr

/-- `BASE`, where the register block stands in a host's address space (R11). -/
def Params.base (p : Params) : BitVec 32 := p.baseWord ++ 0#2

/-- The reference instantiation of R11. -/
def Params.reference : Params where
  targetHz := 48000000
  defaultHz := 8000000
  wsTable := [(24000000, 0), (48000000, 1)]
  flashLatches := true
  oscStarts := true
  muxSwitches := true
  baseWord := 0

/-- One choice of the schedule: which agent of R7 takes its next step, or what the host does (R118). -/
inductive Move where
  /-- The foreground context executes the operation `seq_state` names (R66). -/
  | sequencer
  /-- The interrupt context services the pending tick, if there is one (R108). -/
  | toggler
  /-- The flash controller's step FlashLatch (R79). -/
  | flashController
  /-- The high-speed oscillator's step OscReady (R84). -/
  | oscillator
  /-- The clock multiplexer's step MuxSwitch (R87). -/
  | multiplexer
  /-- The tick timer's step TickFire (R94). -/
  | tickTimer
  /-- The host reads the register at a byte offset through the host read port (R118). -/
  | hostRead (off : BitVec 8)
  /-- The host asserts `rst` (R118, R120). -/
  | rst
deriving DecidableEq, Repr, Inhabited

/-- FREE VALUE. The schedule: the spec fixes no order among enabled agents (R8, D29). Nothing
constrains it. -/
opaque schedule : Nat → Move

/-- FREE VALUE. `PIN_RESET_LEVEL`: the level of the output latch after a reset, drawn afresh at each
reset (R26, R38, R120, U1). Nothing constrains it. -/
opaque pinResetLevel : Nat → BitVec 1

/-- FREE VALUE. The level at the pad while `pin_oe = 0` (R121 P5, U21). Nothing constrains it. -/
opaque undrivenPad : Nat → BitVec 1

/-- FREE VALUE. `FLASH_WAIT_CYCLES` of a parameter set whose table has no row for the target
frequency (R75 leaves it undefined). `step` refuses every such set (R12). -/
opaque undefinedWaitCycles : Nat

/-- `ws_lookup(f)` of R75: the count of the first row whose limit is not below f, undefined for
`f = 0` and above the last limit. -/
def wsLookup (table : List (Nat × Nat)) (f : Nat) : Option Nat :=
  if f = 0 then none else (table.find? fun row => decide (f ≤ row.1)).map Prod.snd

/-- `timing_ok(f, w)` of R76: the least count `f` needs is defined and not above `w`. -/
def timingOk (table : List (Nat × Nat)) (f w : Nat) : Bool :=
  match wsLookup table f with
  | some least => decide (least ≤ w)
  | none => false

/-- `FLASH_WAIT_CYCLES = ws_lookup(TARGET_FREQUENCY_HZ)` (R11, R75). -/
def Params.flashWaitCycles (p : Params) : Nat :=
  (wsLookup p.wsTable p.targetHz).getD undefinedWaitCycles

/-- `TICK_PERIOD_CYCLES = udiv(TARGET_FREQUENCY_HZ, TICK_RATE_HZ)` (R11, R88). -/
def Params.tickPeriodCycles (p : Params) : Nat := udiv p.targetHz tickRateHz

end Sys2Proof.Config
end

