-- ==== Sys2Proof/WellFormed.lean ====
section
/-! DEFINITION. Well-formedness of a parameter set (spec/00_scope.md R12), one named check per
condition. An operation has no operands, so every `Instr` is well formed as syntax; the checks on its
access descriptor (R59, R60) stand beside the descriptors in Machine/Operands.lean. -/

namespace Sys2Proof.Config

/-- The conditions of R12, in its order. -/
inductive ParamCheck where
  | targetRange
  | defaultRange
  | defaultBelowTarget
  | tableNonEmpty
  | limitsAscending
  | countsNonDecreasing
  | countsFit
  | targetLookup
  | defaultLookupZero
  | periodRange
deriving DecidableEq, Repr

/-- Every condition. -/
def ParamCheck.all : List ParamCheck :=
  [.targetRange, .defaultRange, .defaultBelowTarget, .tableNonEmpty, .limitsAscending,
   .countsNonDecreasing, .countsFit, .targetLookup, .defaultLookupZero, .periodRange]

/-- What each condition of R12 asks. -/
def ParamCheck.holds (p : Params) : ParamCheck → Bool
  | .targetRange => decide (1 ≤ p.targetHz ∧ p.targetHz < 2 ^ 32)
  | .defaultRange => decide (1 ≤ p.defaultHz ∧ p.defaultHz < 2 ^ 32)
  | .defaultBelowTarget => decide (p.defaultHz < p.targetHz)
  | .tableNonEmpty => decide (p.wsTable ≠ [])
  | .limitsAscending => decide ((p.wsTable.map Prod.fst).Pairwise (· < ·))
  | .countsNonDecreasing => decide ((p.wsTable.map Prod.snd).Pairwise (· ≤ ·))
  | .countsFit => p.wsTable.all fun row => decide (row.2 ≤ 7)
  | .targetLookup => (wsLookup p.wsTable p.targetHz).isSome
  | .defaultLookupZero => decide (wsLookup p.wsTable p.defaultHz = some 0)
  | .periodRange => decide (1 ≤ p.tickPeriodCycles ∧ p.tickPeriodCycles < 2 ^ 24)

/-- The conditions a parameter set breaks, by name. -/
def Params.problems (p : Params) : List ParamCheck := ParamCheck.all.filter fun c => !c.holds p

/-- R12: a parameter set is well formed when every condition holds; the model refuses any other. -/
abbrev Params.WellFormed (p : Params) : Prop := p.problems = []

end Sys2Proof.Config

namespace Sys2Proof

/-- The operations an operation id can stand for, all of them: R64 gives an operation no operand that
could be out of range. -/
abbrev Instr.WellFormed (i : Instr) : Prop := i ∈ Instr.all

end Sys2Proof
end

