-- ==== Sys2Proof/Machine/State.lean ====
section
/-! DEFINITION. The complete state of the block (spec/10_state.md R16 to R33), its reset (R38,
spec/70_reset_and_hazards.md R120), and the reasons a step can stop. A reserved bit is no field: it
reads 0 and ignores writes (spec/20_memory.md R48), and `PIN_BSR` stores nothing (R25). The block has
no memory but its eight registers (R39), so State holds no list of memory cells. -/

namespace Sys2Proof.Machine

/-- The eight memory-mapped registers (R16, R40). -/
inductive Reg where
  | flashTiming
  | oscCtrl
  | clkCfg
  | tickCtrl
  | tickPeriod
  | coreFreq
  | pinBsr
  | pinData
deriving DecidableEq, Repr

/-- The fields of the registers (R19 to R26, R61). -/
inductive RegField where
  | wsReq
  | wsAct
  | hsoscOn
  | hsoscRdy
  | sw
  | sws
  | hpre
  | ppre
  | en
  | period
  | hz
  | bs
  | br
  | out
deriving DecidableEq, Repr

/-- The agents that write registers through the register space (R36, R39). -/
inductive RegWriter where
  | sequencer
  | toggler
deriving DecidableEq, Repr

/-- The three environment steps the trace names (R32). -/
inductive EnvStep where
  | flashLatch
  | oscReady
  | muxSwitch
deriving DecidableEq, Repr

/-- The events of the trace (R32). -/
inductive Event where
  /-- `W(op, off, wmask, data)`: a register write by operation `op`. -/
  | write (op : BitVec 5) (off : BitVec 8) (wmask data : Word)
  /-- `R(op, off, value)`: a register read by a wait operation. -/
  | read (op : BitVec 5) (off : BitVec 8) (value : Word)
  /-- `ENV(step)`: a step of an environment agent. -/
  | env (step : EnvStep)
  /-- `FIRE`: a firing of the tick timer. -/
  | fire
  /-- `TGL(count, toggled, level)`: one execution of the tick handler; `count` and `level` are
  `tick_count` and `pin_state` after the step. -/
  | tgl (count : Word) (toggled : Bool) (level : BitVec 1)
  /-- `HR(off, value)`: a host read. -/
  | hostRead (off : BitVec 8) (value : Word)
deriving DecidableEq, Repr

/-- Where a reserved access happened: "the offset, or the register and field" (R105). A field names
its register. -/
inductive AccessSite where
  | offset (off : BitVec 8)
  | field (f : RegField)
deriving DecidableEq, Repr

/-- The five model-level fault marks of R105, each with the value R105 records. A mark is ghost state
and names no hardware action. -/
inductive Mark where
  | flashTimingViolation (source : BitVec 2) (count : BitVec 3)
  | switchBeforeReady (code : BitVec 4)
  | tickOverrun (count : Word)
  | illegalSeqState (code : BitVec 4)
  | reservedAccess (site : AccessSite)
deriving DecidableEq, Repr

/-- Why the model faults. -/
inductive Fault where
  /-- Raised by `State.readLatch` alone, when `rd_latch` is read while it holds no value: "a read of it in
  that state, which no agent of this spec makes, is a fault of the model and never a value" (R28), "a read
  of the empty option is a fault, never zero" (U16). No operation and no move makes that read, so no step
  raises it. Safe: the model stops where the spec says that it does. -/
  | emptyLatchRead
deriving DecidableEq, Repr

/-- The state of the block. -/
structure State where
  /-- MODEL'S OWN. The parameters of the step relation, which R16 says are not state: carried in State
  and changed by no step, so that a statement over every state covers every instantiation. -/
  params : Config.Params
  /-- `FLASH_TIMING.WS_REQ`, bits 2:0 (R19). -/
  wsReq : BitVec 3
  /-- `FLASH_TIMING.WS_ACT`, bits 6:4 (R19). -/
  wsAct : BitVec 3
  /-- `OSC_CTRL.HSOSC_ON`, bit 0 (R20). -/
  hsoscOn : BitVec 1
  /-- `OSC_CTRL.HSOSC_RDY`, bit 1 (R20). -/
  hsoscRdy : BitVec 1
  /-- `CLK_CFG.SW`, bits 1:0 (R21). -/
  sw : BitVec 2
  /-- `CLK_CFG.SWS`, bits 3:2 (R21). -/
  sws : BitVec 2
  /-- `CLK_CFG.HPRE`, bits 7:4 (R21). -/
  hpre : BitVec 4
  /-- `CLK_CFG.PPRE`, bits 10:8 (R21). -/
  ppre : BitVec 3
  /-- `TICK_CTRL.EN`, bit 0 (R22). -/
  en : BitVec 1
  /-- `TICK_PERIOD.PERIOD`, bits 23:0 (R23). -/
  period : BitVec 24
  /-- `CORE_FREQ.HZ`, bits 31:0 (R24). -/
  hz : BitVec 32
  /-- `PIN_DATA.OUT`, bit 0 (R26). -/
  out : BitVec 1
  /-- `seq_state` (R27). -/
  seqState : BitVec 4
  /-- `rd_latch` (R28); `none` is the spec's own "holds no value" (R28, R120, U16). -/
  rdLatch : Option Word
  /-- `tick_count` (R29). -/
  tickCount : Word
  /-- `pin_state` (R30); 1 is HIGH, 0 is LOW. -/
  pinState : BitVec 1
  /-- `tick_pending` (R31). -/
  tickPending : BitVec 1
  /-- Ghost: the events in the order the steps were taken, oldest first (R32). -/
  trace : List Event
  /-- Ghost: the set of fault marks, without repeats, in the order they were first added (R33). -/
  faults : List Mark
  /-- MODEL'S OWN. The moves of the schedule that are already decided, oldest first. When there is
  none, the next move is the free value `Config.schedule draws` (R8, D29). -/
  moves : List Config.Move
  /-- MODEL'S OWN. How many free values have been drawn. -/
  draws : Nat
deriving DecidableEq, Repr

/-- Why the model refuses. -/
inductive Refusal where
  /-- Raised by no arm of `exec`: every operation has its meaning. Safe. -/
  | notModelled (mnemonic : String)
  /-- Raised by every move in a state whose parameters are not well formed: "a model refuses any
  other (there is no run to speak of)" (R12, U23). Safe: the spec gives no behaviour. -/
  | illFormedParams (broken : List Config.ParamCheck)
  /-- Raised by every move but `rst` in a state that holds a reserved field value: "a model that meets
  one (because it was started in such a state) refuses the run and marks `ReservedAccess`" (R63). The
  refusal carries the state the run is left in: as it was, with the marks added to `faults` (R105,
  R111). Safe: the spec gives no behaviour. -/
  | reservedFieldValues (marked : State)
deriving DecidableEq, Repr

/-- The reset state of R38 for parameters `p` and an output latch level `level`. -/
def State.resetWith (p : Config.Params) (level : BitVec 1) : State where
  params := p
  wsReq := 0
  wsAct := 0
  hsoscOn := 0
  hsoscRdy := 0
  sw := 0
  sws := 0
  hpre := 0
  ppre := 0
  en := 0
  period := 0
  hz := BitVec.ofNat 32 p.defaultHz
  out := level
  seqState := 0
  rdLatch := none
  tickCount := 0
  pinState := 0
  tickPending := 0
  trace := []
  faults := []
  moves := []
  draws := 0

/-- The machine right after reset: the reference instantiation (R11), the output latch at a free level,
no move decided. -/
def State.reset : State :=
  { State.resetWith Config.Params.reference (Config.pinResetLevel 0) with draws := 1 }

end Sys2Proof.Machine
end

