-- ==== Sys2Proof/Machine/Ops.lean ====
section
/-! DEFINITION. The named operations over the registers and the ghost state: RegRead and RegWrite
(spec/20_memory.md R40 to R49), the trace and the marks (spec/10_state.md R32, R33), reset
(spec/70_reset_and_hazards.md R120), reserved field values (spec/30_encoding.md R63), and the two
operation templates (spec/40_status_wait.md R67, R68).

TAKING AN EXCEPTION: the block has no synchronous exception, and its one interrupt is taken by the
single step TGL.TICK, which is entry, handler body and return, saves nothing and restores nothing
(spec/60_exceptions.md R104, R108, R109). `State.takeTick` in Machine/Toggler.lean is that one shared
operation; there is no return operation. -/

namespace Sys2Proof.Machine

/-! ### The address map -/

/-- The byte offset of a register from `BASE` (R40). -/
def Reg.offset : Reg → BitVec 8
  | .flashTiming => 0x00#8
  | .oscCtrl => 0x04#8
  | .clkCfg => 0x08#8
  | .tickCtrl => 0x0C#8
  | .tickPeriod => 0x10#8
  | .coreFreq => 0x14#8
  | .pinBsr => 0x18#8
  | .pinData => 0x1C#8

/-- Every register, in the order of the map (R40). -/
def Reg.all : List Reg :=
  [.flashTiming, .oscCtrl, .clkCfg, .tickCtrl, .tickPeriod, .coreFreq, .pinBsr, .pinData]

/-- The register at an offset; a misaligned or reserved offset has none (R40, R42, R49). -/
def Reg.ofOffset (off : BitVec 8) : Option Reg := Reg.all.find? fun r => r.offset == off

/-- The register that holds a field (R19 to R26). -/
def RegField.reg : RegField → Reg
  | .wsReq => .flashTiming
  | .wsAct => .flashTiming
  | .hsoscOn => .oscCtrl
  | .hsoscRdy => .oscCtrl
  | .sw => .clkCfg
  | .sws => .clkCfg
  | .hpre => .clkCfg
  | .ppre => .clkCfg
  | .en => .tickCtrl
  | .period => .tickPeriod
  | .hz => .coreFreq
  | .bs => .pinBsr
  | .br => .pinBsr
  | .out => .pinData

/-- The lowest bit position of a field (R19 to R26). -/
def RegField.lo : RegField → Nat
  | .wsReq => 0
  | .wsAct => 4
  | .hsoscOn => 0
  | .hsoscRdy => 1
  | .sw => 0
  | .sws => 2
  | .hpre => 4
  | .ppre => 8
  | .en => 0
  | .period => 0
  | .hz => 0
  | .bs => 0
  | .br => 1
  | .out => 0

/-- The width of a field in bits (R19 to R26). -/
def RegField.width : RegField → Nat
  | .wsReq => 3
  | .wsAct => 3
  | .hsoscOn => 1
  | .hsoscRdy => 1
  | .sw => 2
  | .sws => 2
  | .hpre => 4
  | .ppre => 3
  | .en => 1
  | .period => 24
  | .hz => 32
  | .bs => 1
  | .br => 1
  | .out => 1

/-- Every field. -/
def RegField.all : List RegField :=
  [.wsReq, .wsAct, .hsoscOn, .hsoscRdy, .sw, .sws, .hpre, .ppre, .en, .period, .hz, .bs, .br, .out]

/-- Which writer, if any, may write a field through the register space (R19 to R26, R36, R40). -/
def RegField.writer : RegField → Option RegWriter
  | .wsReq => some .sequencer
  | .wsAct => none
  | .hsoscOn => some .sequencer
  | .hsoscRdy => none
  | .sw => some .sequencer
  | .sws => none
  | .hpre => some .sequencer
  | .ppre => some .sequencer
  | .en => some .sequencer
  | .period => some .sequencer
  | .hz => some .sequencer
  | .bs => some .toggler
  | .br => some .toggler
  | .out => none

/-- The mask of a field's bit range (R59). -/
def RegField.mask (f : RegField) : Word := BitVec.ofNat 32 ((2 ^ f.width - 1) * 2 ^ f.lo)

/-- A field value, zero-extended and shifted left to the field's position (R59). -/
def RegField.word (f : RegField) (value : Nat) : Word := BitVec.ofNat 32 value <<< f.lo

/-- Bit `b` of register `r` is a bit of field `f`. -/
def RegField.covers (f : RegField) (r : Reg) (b : Nat) : Bool :=
  decide (f.reg = r ∧ f.lo ≤ b ∧ b < f.lo + f.width)

/-- Bit `b` of register `r` belongs to a field that `w` may write. -/
def writableBit (w : RegWriter) (r : Reg) (b : Nat) : Bool :=
  RegField.all.any fun f => f.covers r b && decide (f.writer = some w)

/-- Bit `b` of register `r` belongs to no field (R48). -/
def reservedBit (r : Reg) (b : Nat) : Bool := !RegField.all.any fun f => f.covers r b

/-! ### Ghost state -/

/-- `emit e`: append an event to the trace (R14, R32). -/
def State.emit (s : State) (e : Event) : State := { s with trace := s.trace ++ [e] }

/-- `raise m`: add a mark to the set `faults` (R14, R33, R105). -/
def State.raise (s : State) (m : Mark) : State :=
  { s with faults := if m ∈ s.faults then s.faults else s.faults ++ [m] }

/-- Add several marks (R111). -/
def State.raiseAll (s : State) (ms : List Mark) : State := ms.foldl State.raise s

/-! ### Register reads -/

/-- The word of a register: its fields at their positions, 0 in every reserved bit, and 0 for
`PIN_BSR` (R44, R48, R25). -/
def State.readReg (s : State) : Reg → Word
  | .flashTiming => 0#25 ++ s.wsAct ++ 0#1 ++ s.wsReq
  | .oscCtrl => 0#30 ++ s.hsoscRdy ++ s.hsoscOn
  | .clkCfg => 0#21 ++ s.ppre ++ s.hpre ++ s.sws ++ s.sw
  | .tickCtrl => 0#31 ++ s.en
  | .tickPeriod => 0#8 ++ s.period
  | .coreFreq => s.hz
  | .pinBsr => 0#32
  | .pinData => 0#31 ++ s.out

/-- `RegRead(off)`; a misaligned or reserved offset gives no word (R42, R44, R49). -/
def State.regRead (s : State) (off : BitVec 8) : Option Word := (Reg.ofOffset off).map s.readReg

/-- Byte `i` of a register laid out little-endian: bits `8*i+7 : 8*i` (R43). -/
def byteOf (v : Word) (i : Nat) : Byte := v.extractLsb' (8 * i) 8

/-- The byte at a byte offset from `BASE`, where the registers are laid out in bytes (R39, R43);
there is none above 0x1F. -/
def State.readByte (s : State) (off : BitVec 8) : Option Byte :=
  (s.regRead (off &&& 0xFC#8)).map fun v => byteOf v (off &&& 0x03#8).toNat

/-- The byte at an address of the host's address space, where the block stands at `BASE` (R11, R14).
The distance from `BASE` is taken modulo 2^32, so a block whose `BASE` lies in the last 32 bytes of that
space goes on at address 0: no rule says what `BASE + off` past 2^32 is (DESIGN CHOICE,
notes/assumptions/25.md). -/
def State.hostByte (s : State) (addr : BitVec 32) : Option Byte :=
  if (addr - s.params.base).toNat < 0x20 then s.readByte ((addr - s.params.base).setWidth 8) else none

/-- `rd_latch` exposed. A read while it holds no value is the fault R28 and U16 name: "a fault of the
model and never a value". No agent makes it. -/
def State.readLatch (s : State) : Except Fault Word :=
  match s.rdLatch with
  | some v => .ok v
  | none => .error .emptyLatchRead

/-! ### Register writes -/

/-- The masked write of one field: the bits of `mask` come from `new`, the others stay (R45). -/
def merge {n : Nat} (old mask new : BitVec n) : BitVec n := (old &&& ~~~mask) ||| (new &&& mask)

/-- A write to `PIN_BSR` (R46): set, clear, nothing, or, with both requests, refused with a mark. -/
def State.writePinBsr (s : State) (wmask data : Word) : State :=
  match wmask.getLsbD 0 && data.getLsbD 0, wmask.getLsbD 1 && data.getLsbD 1 with
  | true, false => { s with out := 1#1 }
  | false, true => { s with out := 0#1 }
  | false, false => s
  | true, true => s.raise (.reservedAccess (.offset 0x18#8))

/-- `RegWrite` to a register by an agent (R45): only masked bits of fields the agent may write change
(R36). -/
def State.writeReg (s : State) (w : RegWriter) (r : Reg) (wmask data : Word) : State :=
  match w with
  | .sequencer =>
    match r with
    | .flashTiming => { s with wsReq := merge s.wsReq (wmask.extractLsb' 0 3) (data.extractLsb' 0 3) }
    | .oscCtrl => { s with hsoscOn := merge s.hsoscOn (wmask.extractLsb' 0 1) (data.extractLsb' 0 1) }
    | .clkCfg =>
      { s with
        sw := merge s.sw (wmask.extractLsb' 0 2) (data.extractLsb' 0 2)
        hpre := merge s.hpre (wmask.extractLsb' 4 4) (data.extractLsb' 4 4)
        ppre := merge s.ppre (wmask.extractLsb' 8 3) (data.extractLsb' 8 3) }
    | .tickCtrl => { s with en := merge s.en (wmask.extractLsb' 0 1) (data.extractLsb' 0 1) }
    | .tickPeriod =>
      { s with period := merge s.period (wmask.extractLsb' 0 24) (data.extractLsb' 0 24) }
    | .coreFreq => { s with hz := merge s.hz wmask data }
    | .pinBsr => s
    | .pinData => s
  | .toggler =>
    match r with
    | .flashTiming => s
    | .oscCtrl => s
    | .clkCfg => s
    | .tickCtrl => s
    | .tickPeriod => s
    | .coreFreq => s
    | .pinBsr => s.writePinBsr wmask data
    | .pinData => s

/-- `RegWrite(off, wmask, data)`. No agent writes at a misaligned or reserved offset (R42, R49); such
a write would be refused with a mark. -/
def State.regWrite (s : State) (w : RegWriter) (off : BitVec 8) (wmask data : Word) : State :=
  match Reg.ofOffset off with
  | some r => s.writeReg w r wmask data
  | none => s.raise (.reservedAccess (.offset off))

/-! ### Reserved field values -/

/-- The fields that hold a value R63 reserves. The both-bits `PIN_BSR` write, which R63 lists too, is
no value a state can hold; `State.writePinBsr` marks it. -/
def State.reservedFields (s : State) : List RegField :=
  (if s.sw.toNat < 2 then [] else [.sw]) ++
  (if s.sws.toNat < 2 then [] else [.sws]) ++
  (if s.hpre = 0#4 then [] else [.hpre]) ++
  (if s.ppre = 0#3 then [] else [.ppre]) ++
  (if s.params.wsTable.any fun row => row.2 == s.wsReq.toNat then [] else [.wsReq]) ++
  (if s.en = 1#1 ∧ s.period = 0#24 then [.period] else [])

/-- The marks of the reserved field values a state holds (R63, R105). -/
def State.reservedMarks (s : State) : List Mark :=
  s.reservedFields.map fun f => .reservedAccess (.field f)

/-! ### Reset -/

/-- Asserting `rst` (R120): every piece of state at its reset value in one step, from any state, the
output latch at a fresh free level. The parameters, which are no state (R16), and the model's own
schedule stay. -/
def State.applyReset (s : State) : State :=
  { State.resetWith s.params (Config.pinResetLevel s.draws) with
    moves := s.moves
    draws := s.draws + 1 }

/-! ### The operation templates -/

/-- The access descriptor of an operation of format W (R56). -/
structure WriteAccess where
  reg : Reg
  wmask : Word
  data : Word
deriving DecidableEq, Repr

/-- The access descriptor of an operation of format P (R56). -/
structure PollAccess where
  reg : Reg
  rmask : Word
  expect : Word
deriving DecidableEq, Repr

/-- The write template (R67): one `RegWrite`, one event, the next code. -/
def State.writeOp (s : State) (op : BitVec 5) (d : WriteAccess) : State :=
  { (s.writeReg .sequencer d.reg d.wmask d.data).emit (.write op d.reg.offset d.wmask d.data) with
    seqState := idCode op + 1 }

/-- Whether a poll that read `v` sees the awaited value (R68). -/
def PollAccess.sees (d : PollAccess) (v : Word) : Bool := (v &&& d.rmask) == d.expect

/-- The status-wait template (R68): one `RegRead`, its capture in `rd_latch`, one event, and the next
code, or the same code where the awaited value is not there. -/
def State.pollOp (s : State) (op : BitVec 5) (d : PollAccess) : State :=
  { s.emit (.read op d.reg.offset (s.readReg d.reg)) with
    rdLatch := some (s.readReg d.reg)
    seqState := if d.sees (s.readReg d.reg) then idCode op + 1 else idCode op }

end Sys2Proof.Machine
end

