-- ==== Sys2Proof/Machine/Flags.lean ====
section
/-! DEFINITION. The block has no flags register (spec/10_state.md R16). What stands in the place of
flags are the derived signals: the four predicates of R34, the frequencies of spec/42_osc_mux.md R81,
and the ports of spec/10_state.md R37, all functions of the state and none of them state. -/

namespace Sys2Proof.Machine

/-- `oscillator_ready` (R34). -/
def State.oscillatorReady (s : State) : Bool := s.hsoscRdy == 1#1

/-- `clock_switched` (R34). -/
def State.clockSwitched (s : State) : Bool := s.sws == 1#2

/-- `ws_latched` (R34). -/
def State.wsLatched (s : State) : Bool := s.wsAct == s.wsReq

/-- `cfg_done` (R34). -/
def State.cfgDone (s : State) : Bool := s.seqState == 9#4

/-- `base_hz`: the frequency of a clock source, undefined for the reserved codes 2 and 3 (R81). -/
def State.baseHz (s : State) (source : BitVec 2) : Option Nat :=
  if source = 0#2 then some s.params.defaultHz
  else if source = 1#2 then some s.params.targetHz
  else none

/-- `sysclk_hz = base_hz(SWS)` (R81). -/
def State.sysclkHz (s : State) : Option Nat := s.baseHz s.sws

/-- `hclk_hz`: the system clock when the AHB prescaler is undivided, undefined otherwise (R81). -/
def State.hclkHz (s : State) : Option Nat := if s.hpre = 0#4 then s.sysclkHz else none

/-- `pclk_hz`: the AHB clock when the APB prescaler is undivided, undefined otherwise (R81). -/
def State.pclkHz (s : State) : Option Nat := if s.ppre = 0#3 then s.hclkHz else none

/-- `src_ready`: the low-speed oscillator always runs, the high-speed one runs when it is ready (R81);
the reserved codes name no source. -/
def State.srcReady (s : State) (source : BitVec 2) : Bool :=
  if source = 0#2 then true else if source = 1#2 then s.oscillatorReady else false

/-- `timing_ok` for a clock source at the latched wait-state count (R76, R87); a reserved source has
no frequency and is not in order. -/
def State.timingOkFor (s : State) (source : BitVec 2) : Bool :=
  match s.baseHz source with
  | some f => Config.timingOk s.params.wsTable f s.wsAct.toNat
  | none => false

/-- The tick rate in real time, `sysclk_hz / PERIOD`, as a pair of the two, where the timer runs and
the system clock is defined (R93). No rule of the model depends on it. -/
def State.tickRate (s : State) : Option (Nat × Nat) :=
  if s.en = 1#1 then s.sysclkHz.map fun f => (f, s.period.toNat) else none

/-! ### The ports (R37); `clk_ls`, `clk_hs` and `sysclk` are not modelled as signals. -/

/-- Output port `hs_on`. -/
def State.portHsOn (s : State) : BitVec 1 := s.hsoscOn

/-- Output port `ws_req`. -/
def State.portWsReq (s : State) : BitVec 3 := s.wsReq

/-- Output port `tick_irq`, the interrupt request line (R31, R106). -/
def State.portTickIrq (s : State) : BitVec 1 := s.tickPending

/-- Output port `pin_out`. -/
def State.portPinOut (s : State) : BitVec 1 := s.out

/-- Output port `hrd_data` for the offset at `hrd_off` (R37, R118). -/
def State.portHrdData (s : State) (hrdOff : BitVec 8) : Option Word := s.regRead hrdOff

/-- The level at the pad for a value of the input port `pin_oe`: the output latch when the pin is a
digital output, else a free value (R98, R121 P5, U21). -/
def State.pad (s : State) (pinOe : BitVec 1) (draw : Nat) : BitVec 1 :=
  if pinOe = 1#1 then s.out else Config.undrivenPad draw

end Sys2Proof.Machine
end

