-- ==== Sys2Proof/Machine/Operands.lean ====
section
/-! DEFINITION. The operands: the access descriptor of every operation, assembled from field values and
bit ranges as spec/30_encoding.md R59 says, with the values of R60, and the checks a descriptor meets. -/

namespace Sys2Proof.Machine

/-- FWS.SET: `WS_REQ` takes `FLASH_WAIT_CYCLES` (R60, R77). -/
def fwsSetAccess (p : Config.Params) : WriteAccess :=
  ⟨.flashTiming, RegField.wsReq.mask, RegField.wsReq.word p.flashWaitCycles⟩

/-- FWS.WAIT awaits `WS_ACT = FLASH_WAIT_CYCLES` (R60, R78). -/
def fwsWaitAccess (p : Config.Params) : PollAccess :=
  ⟨.flashTiming, RegField.wsAct.mask, RegField.wsAct.word p.flashWaitCycles⟩

/-- OSC.ON: `HSOSC_ON` takes 1 (R60, R82). -/
def oscOnAccess : WriteAccess := ⟨.oscCtrl, RegField.hsoscOn.mask, RegField.hsoscOn.word 1⟩

/-- OSC.WAIT awaits `HSOSC_RDY = 1` (R60, R83). -/
def oscWaitAccess : PollAccess := ⟨.oscCtrl, RegField.hsoscRdy.mask, RegField.hsoscRdy.word 1⟩

/-- MUX.SEL: `SW` takes 1, `HPRE` and `PPRE` take 0, in one write (R60, R85). -/
def muxSelAccess : WriteAccess :=
  ⟨.clkCfg, RegField.sw.mask ||| RegField.hpre.mask ||| RegField.ppre.mask,
   RegField.sw.word 1 + RegField.hpre.word 0 + RegField.ppre.word 0⟩

/-- MUX.WAIT awaits `SWS = 1` (R60, R86). -/
def muxWaitAccess : PollAccess := ⟨.clkCfg, RegField.sws.mask, RegField.sws.word 1⟩

/-- TICK.LOAD: `PERIOD` takes `TICK_PERIOD_CYCLES` (R60, R89). -/
def tickLoadAccess (p : Config.Params) : WriteAccess :=
  ⟨.tickPeriod, RegField.period.mask, RegField.period.word p.tickPeriodCycles⟩

/-- TICK.EN: `EN` takes 1 (R60, R90). -/
def tickEnAccess : WriteAccess := ⟨.tickCtrl, RegField.en.mask, RegField.en.word 1⟩

/-- FREQ.REC: `HZ` takes `TARGET_FREQUENCY_HZ` (R60, R91). -/
def freqRecAccess (p : Config.Params) : WriteAccess :=
  ⟨.coreFreq, RegField.hz.mask, RegField.hz.word p.targetHz⟩

/-- TGL.TICK on a toggle: `BS` takes 1 for a new level 1, `BR` takes 1 for a new level 0 (R60, R95). -/
def tglTickAccess (level : BitVec 1) : WriteAccess :=
  ⟨.pinBsr, RegField.bs.mask ||| RegField.br.mask, if level = 1#1 then RegField.bs.word 1 else RegField.br.word 1⟩

/-- The register access an operation makes, by its format (R56, R60). -/
inductive Access where
  /-- Format W: one register write. -/
  | write (d : WriteAccess)
  /-- Format P: one register read and a comparison. -/
  | poll (d : PollAccess)
  /-- Format N: no register access. -/
  | none
  /-- Format H: no access, or one write to `PIN_BSR` with data the operation computes. -/
  | handler
deriving DecidableEq, Repr

/-- The access of every operation (R60). -/
def access (p : Config.Params) : Instr → Access
  | .fwsSet => .write (fwsSetAccess p)
  | .fwsWait => .poll (fwsWaitAccess p)
  | .oscOn => .write oscOnAccess
  | .oscWait => .poll oscWaitAccess
  | .muxSel => .write muxSelAccess
  | .muxWait => .poll muxWaitAccess
  | .tickLoad => .write (tickLoadAccess p)
  | .tickEn => .write tickEnAccess
  | .freqRec => .write (freqRecAccess p)
  | .idle => .none
  | .tglTick => .handler

/-- A write descriptor is well formed: every masked bit belongs to a field the writer may write, and no
data bit lies outside the mask (R48, R59, R60). -/
def WriteAccess.wellFormed (w : RegWriter) (d : WriteAccess) : Bool :=
  (List.range 32).all fun b =>
    (!d.wmask.getLsbD b || writableBit w d.reg b) && (!d.data.getLsbD b || d.wmask.getLsbD b)

/-- A poll descriptor is well formed: the mask is the bit range of one field of the register, and no
expected bit lies outside it (R59). -/
def PollAccess.wellFormed (d : PollAccess) : Bool :=
  (RegField.all.any fun f => decide (f.reg = d.reg ∧ f.mask = d.rmask)) && (d.expect &&& d.rmask == d.expect)

/-- The descriptor of an operation is well formed. -/
def Access.wellFormed : Access → Bool
  | .write d => d.wellFormed .sequencer
  | .poll d => d.wellFormed
  | .none => true
  | .handler => (tglTickAccess 0).wellFormed .toggler && (tglTickAccess 1).wellFormed .toggler

end Sys2Proof.Machine
end

