-- ==== Sys2Proof/Machine/FlashTiming.lean ====
section
/-! DEFINITION. Flash timing: FWS.SET, FWS.WAIT and the flash controller's step FlashLatch
(spec/41_flash_timing.md R77 to R79). -/

namespace Sys2Proof.Machine

/-- FWS.SET (R77). -/
def execFwsSet (s : State) : Host.Outcome State Fault Refusal :=
  .next (s.writeOp (encode .fwsSet) (fwsSetAccess s.params))

/-- FWS.WAIT, one poll (R78). -/
def execFwsWait (s : State) : Host.Outcome State Fault Refusal :=
  .next (s.pollOp (encode .fwsWait) (fwsWaitAccess s.params))

/-- FlashLatch is enabled when the controller works and the request is not yet latched (R79). -/
def State.flashLatchEnabled (s : State) : Bool := s.params.flashLatches && s.wsAct != s.wsReq

/-- FlashLatch (R79): the whole requested count is latched at once. -/
def State.flashLatch (s : State) : State := { s with wsAct := s.wsReq }.emit (.env .flashLatch)

end Sys2Proof.Machine
end

