-- ==== Sys2Proof/Machine/OscMux.lean ====
section
/-! DEFINITION. Oscillator and clock multiplexer: OSC.ON, OSC.WAIT, MUX.SEL, MUX.WAIT and the
environment steps OscReady and MuxSwitch (spec/42_osc_mux.md R82 to R87). -/

namespace Sys2Proof.Machine

/-- OSC.ON (R82). -/
def execOscOn (s : State) : Host.Outcome State Fault Refusal :=
  .next (s.writeOp (encode .oscOn) oscOnAccess)

/-- OSC.WAIT, one poll (R83). -/
def execOscWait (s : State) : Host.Outcome State Fault Refusal :=
  .next (s.pollOp (encode .oscWait) oscWaitAccess)

/-- OscReady is enabled when the oscillator works, is on and is not yet ready (R84). -/
def State.oscReadyEnabled (s : State) : Bool :=
  s.params.oscStarts && s.hsoscOn == 1#1 && s.hsoscRdy == 0#1

/-- OscReady (R84). -/
def State.oscReady (s : State) : State := { s with hsoscRdy := 1#1 }.emit (.env .oscReady)

/-- The model-level check in front of MUX.SEL (R85): a mark where the oscillator is not ready. -/
def State.checkReady (s : State) : State :=
  if s.hsoscRdy = 0#1 then s.raise (.switchBeforeReady s.seqState) else s

/-- MUX.SEL (R85): the check, then one write of the three fields. -/
def execMuxSel (s : State) : Host.Outcome State Fault Refusal :=
  .next (s.checkReady.writeOp (encode .muxSel) muxSelAccess)

/-- MUX.WAIT, one poll (R86). -/
def execMuxWait (s : State) : Host.Outcome State Fault Refusal :=
  .next (s.pollOp (encode .muxWait) muxWaitAccess)

/-- MuxSwitch is enabled when the multiplexer works and the wanted source is another one, is 0 or 1 and
is ready (R87). -/
def State.muxSwitchEnabled (s : State) : Bool :=
  s.params.muxSwitches && s.sws != s.sw && decide (s.sw.toNat < 2) && s.srcReady s.sw

/-- The flash timing check in front of the switch (R87, R124). -/
def State.checkTiming (s : State) : State :=
  if s.timingOkFor s.sw then s else s.raise (.flashTimingViolation s.sw s.wsAct)

/-- MuxSwitch (R87): the check, then the clock and its status change together. -/
def State.muxSwitch (s : State) : State :=
  { s.checkTiming with sws := s.sw }.emit (.env .muxSwitch)

end Sys2Proof.Machine
end

