-- ==== Sys2Proof/Machine/TickTimer.lean ====
section
/-! DEFINITION. Tick timer: TICK.LOAD, TICK.EN, FREQ.REC, IDLE and the timer's step TickFire
(spec/43_tick_timer.md R89 to R94). -/

namespace Sys2Proof.Machine

/-- TICK.LOAD (R89). -/
def execTickLoad (s : State) : Host.Outcome State Fault Refusal :=
  .next (s.writeOp (encode .tickLoad) (tickLoadAccess s.params))

/-- TICK.EN (R90). -/
def execTickEn (s : State) : Host.Outcome State Fault Refusal :=
  .next (s.writeOp (encode .tickEn) tickEnAccess)

/-- FREQ.REC (R91). -/
def execFreqRec (s : State) : Host.Outcome State Fault Refusal :=
  .next (s.writeOp (encode .freqRec) (freqRecAccess s.params))

/-- IDLE (R92): no access, no event; `seq_state` stays the code of IDLE. -/
def execIdle (s : State) : Host.Outcome State Fault Refusal :=
  .next { s with seqState := idCode (encode .idle) }

/-- TickFire is enabled while the timer runs (R94). -/
def State.tickFireEnabled (s : State) : Bool := s.en == 1#1

/-- TickFire (R94): the tick becomes pending, or, if one is pending already, is lost with a mark. -/
def State.tickFire (s : State) : State :=
  (if s.tickPending = 1#1 then s.raise (.tickOverrun s.tickCount)
   else { s with tickPending := 1#1 }).emit .fire

end Sys2Proof.Machine
end

