-- ==== Sys2Proof/Machine/Toggler.lean ====
section
/-! DEFINITION. The tick divider and the output state machine: TGL.TICK (spec/44_toggler.md R95), which
is also the whole of taking the tick interrupt and returning from it (spec/60_exceptions.md R108,
R109). -/

namespace Sys2Proof.Machine

/-- The toggle part of TGL.TICK (R95): `pin_state` inverts and one set/clear write drives the pin to
the new level. -/
def State.toggle (s : State) : State :=
  let level := ~~~s.pinState
  let d := tglTickAccess level
  { s with pinState := level }.writeReg .toggler d.reg d.wmask d.data

/-- The counting part of TGL.TICK (R95): the count goes up by one and the request is cleared. -/
def State.countTick (s : State) : State :=
  { s with tickCount := add32 s.tickCount 1#32, tickPending := 0#1 }

/-- Taking the tick interrupt (R108): count the tick and clear the request, toggle on every multiple of
1000 of the incremented count, and record the event (R95). -/
def State.takeTick (s : State) : State :=
  if umod s.countTick.tickCount.toNat Config.togglePeriod = 0 then
    s.countTick.toggle.emit (.tgl s.countTick.tickCount true (~~~s.pinState))
  else
    s.countTick.emit (.tgl s.countTick.tickCount false s.pinState)

/-- TGL.TICK (R95). -/
def execTglTick (s : State) : Host.Outcome State Fault Refusal := .next s.takeTick

end Sys2Proof.Machine
end

