-- ==== Sys2Proof/Machine/Dispatch.lean ====
section
/-! DEFINITION. One arm per operation, each one direct call of its meaning. -/

namespace Sys2Proof.Machine

def exec (i : Instr) (s : State) : Host.Outcome State Fault Refusal :=
  match i with
  | .fwsSet => Sys2Proof.Machine.execFwsSet s
  | .fwsWait => Sys2Proof.Machine.execFwsWait s
  | .oscOn => Sys2Proof.Machine.execOscOn s
  | .oscWait => Sys2Proof.Machine.execOscWait s
  | .muxSel => Sys2Proof.Machine.execMuxSel s
  | .muxWait => Sys2Proof.Machine.execMuxWait s
  | .tickLoad => Sys2Proof.Machine.execTickLoad s
  | .tickEn => Sys2Proof.Machine.execTickEn s
  | .freqRec => Sys2Proof.Machine.execFreqRec s
  | .idle => Sys2Proof.Machine.execIdle s
  | .tglTick => Sys2Proof.Machine.execTglTick s

end Sys2Proof.Machine
end

