-- ==== Sys2Proof/Machine/Moves.lean ====
section
/-! DEFINITION. One move of the schedule: the step of the agent it names, where that step is enabled,
or what the host does (spec/00_scope.md R7, R8; spec/40_status_wait.md R66; spec/60_exceptions.md R108,
R118). A move that names an agent with no enabled step changes nothing (DESIGN CHOICE,
notes/assumptions/4.md). -/

namespace Sys2Proof.Machine

/-- The id of the operation `seq_state` names: `op[4]` is 0 (R55, R58). -/
def State.nextId (s : State) : BitVec 5 := mkId 0#1 s.seqState

/-- The sequencer's step (R58, R66): the operation `seq_state` names; for codes 10 to 15 there is no
step, and the model adds a mark (R62). -/
def sequencerMove (s : State) : Host.Outcome State Fault Refusal :=
  match decode s.nextId with
  | .ok i => exec i s
  | .error _ => .next (s.raise (.illegalSeqState s.seqState))

/-- The toggler's step (R58, R108): TGL.TICK whenever a tick is pending, and none otherwise. -/
def togglerMove (s : State) : Host.Outcome State Fault Refusal :=
  if s.tickPending = 1#1 then exec .tglTick s else .next s

/-- A host read (R42, R49, R118): the word read, in an `HR` event; at a misaligned or reserved offset
the read is refused and the model adds a mark. -/
def State.hostRead (s : State) (off : BitVec 8) : State :=
  match s.regRead off with
  | some v => s.emit (.hostRead off v)
  | none => s.raise (.reservedAccess (.offset off))

/-- The step of the agent a move names. -/
def agentMove (m : Config.Move) (s : State) : Host.Outcome State Fault Refusal :=
  match m with
  | .sequencer => sequencerMove s
  | .toggler => togglerMove s
  | .flashController => .next (if s.flashLatchEnabled then s.flashLatch else s)
  | .oscillator => .next (if s.oscReadyEnabled then s.oscReady else s)
  | .multiplexer => .next (if s.muxSwitchEnabled then s.muxSwitch else s)
  | .tickTimer => .next (if s.tickFireEnabled then s.tickFire else s)
  | .hostRead off => .next (s.hostRead off)
  | .rst => .next s.applyReset

/-- The state a refused run is left in (R63): `s` with the mark of each reserved field value it holds and
the marks of the other fault conditions that hold in the move `m` added to `faults` (R105, R111), and
nothing else changed. -/
def State.refuseMarked (s : State) (m : Config.Move) : State :=
  match agentMove m (s.raiseAll s.reservedMarks) with
  | .next t => { s with faults := t.faults }
  | .fault _ => s.raiseAll s.reservedMarks
  | .refused _ => s.raiseAll s.reservedMarks

/-- A move in a state: ill-formed parameters are refused (R12); a state that holds a reserved field
value is refused with its marks (R63), except by `rst`, which leaves any state whatever (R120). -/
def move (m : Config.Move) (s : State) : Host.Outcome State Fault Refusal :=
  if s.params.problems ≠ [] then .refused (.illFormedParams s.params.problems)
  else if m ≠ .rst ∧ s.reservedFields ≠ [] then .refused (.reservedFieldValues (s.refuseMarked m))
  else agentMove m s

/-- The move the schedule takes next: the oldest decided one, else a free value (R8, D29). -/
def State.nextMove (s : State) : Config.Move :=
  match s.moves with
  | m :: _ => m
  | [] => Config.schedule s.draws

/-- The state once that move has been taken from the schedule. -/
def State.popMove (s : State) : State :=
  match s.moves with
  | _ :: rest => { s with moves := rest }
  | [] => { s with draws := s.draws + 1 }

/-- The state in which the operation with id `id` is the next the block runs: `seq_state` names it and
the sequencer moves next, or, for the toggler's operation, a tick is pending and the toggler moves next.
The toggler has no state code, so ids 0x11 to 0x1F can be placed nowhere (R55). -/
def State.place (s : State) (id : BitVec 5) : State :=
  if idUnit id = 0#1 then { s with seqState := idCode id, moves := .sequencer :: s.moves }
  else if idCode id = 0#4 then { s with tickPending := 1#1, moves := .toggler :: s.moves }
  else s

end Sys2Proof.Machine
end

