-- ==== Sys2Proof/Machine/Step.lean ====
section
/-! DEFINITION. One step of the machine: the schedule's next move. The operation sequence is hardwired
(spec/20_memory.md R53), so nothing is fetched; how an operation comes to run is told in
notes/assumptions/5.md. -/

namespace Sys2Proof.Machine

/-- One step: the schedule's next move, taken from the schedule and made (R8). -/
def step (s : State) : Host.Outcome State Fault Refusal := move s.nextMove s.popMove

/-- `s` with the operation whose id stands in the low five bits of `w` as the next the block runs. -/
def State.withFetchWord (s : State) (nbits w : Nat) : State :=
  s.place (BitVec.ofNat 5 (w % 2 ^ nbits))

end Sys2Proof.Machine
end

