-- ==== Sys2Proof/Machine/Written.lean ====
section
/-! DEFINITION. The written form of operations and events used in traces and test vectors
(spec/30_encoding.md R64, spec/10_state.md R32). -/

namespace Sys2Proof.Machine

/-- The capital hexadecimal digit of a number below 16. -/
def hexDigit (n : Nat) : Char :=
  if n < 10 then Char.ofNat (48 + n) else Char.ofNat (55 + n)

/-- The last `k` hexadecimal digits of `n`, the highest first. -/
def hexDigits : Nat → Nat → List Char
  | 0, _ => []
  | k + 1, n => hexDigits k (n / 16) ++ [hexDigit (n % 16)]

/-- A number written `0x` with `k` digits (R13). -/
def hex (k n : Nat) : String := "0x" ++ String.ofList (hexDigits k n)

/-- The mnemonic an operation id is written with; an id that names no operation is written as itself. -/
def opText (op : BitVec 5) : String :=
  match decode op with
  | .ok i => i.mnemonic
  | .error _ => hex 2 op.toNat

/-- The written form of an environment step (R64). -/
def EnvStep.text : EnvStep → String
  | .flashLatch => "env FlashLatch"
  | .oscReady => "env OscReady"
  | .muxSwitch => "env MuxSwitch"

/-- The written form of an event: operations with their access in round brackets, environment steps and
firings as R64 writes them, handler executions and host reads as R32 does. -/
def Event.text : Event → String
  | .write op off m d =>
    opText op ++ " (W " ++ hex 2 off.toNat ++ " m=" ++ hex 8 m.toNat ++ " d=" ++ hex 8 d.toNat ++ ")"
  | .read op off v => opText op ++ " (R " ++ hex 2 off.toNat ++ " -> " ++ hex 8 v.toNat ++ ")"
  | .env e => e.text
  | .fire => "fire"
  | .tgl c t l =>
    "TGL(" ++ toString c.toNat ++ ", " ++ (if t then "true" else "false") ++ ", " ++ toString l.toNat ++ ")"
  | .hostRead off v => "HR(" ++ hex 2 off.toNat ++ ", " ++ hex 8 v.toNat ++ ")"

end Sys2Proof.Machine
end

