-- ==== Sys2Proof/Safety.lean ====
section
/-! DEFINITION. The terms claims are stated in: who owns which state (spec/10_state.md R36), the
invariant of the fixed order of operations (R34, spec/70_reset_and_hazards.md R124 to R126, R134), the
reading of the sequencer's progress off the trace (R34, R70), counting of serviced ticks
(spec/44_toggler.md R100), and runs under a schedule with weak fairness (R123, R133). -/

namespace Sys2Proof.Machine

/-! ### Ownership (R36) -/

/-- Everything the sequencer alone writes is the same in two states. -/
structure SameSequencerState (s t : State) : Prop where
  wsReq : t.wsReq = s.wsReq
  hsoscOn : t.hsoscOn = s.hsoscOn
  sw : t.sw = s.sw
  hpre : t.hpre = s.hpre
  ppre : t.ppre = s.ppre
  en : t.en = s.en
  period : t.period = s.period
  hz : t.hz = s.hz
  seqState : t.seqState = s.seqState
  rdLatch : t.rdLatch = s.rdLatch

/-- Everything the toggler alone writes is the same in two states. -/
structure SameTogglerState (s t : State) : Prop where
  tickCount : t.tickCount = s.tickCount
  pinState : t.pinState = s.pinState
  out : t.out = s.out

/-- The three fields the environment's status reports write are the same in two states. -/
structure SameStatus (s t : State) : Prop where
  wsAct : t.wsAct = s.wsAct
  hsoscRdy : t.hsoscRdy = s.hsoscRdy
  sws : t.sws = s.sws

/-- The model's own fields are the same in two states. -/
structure SameModelFields (s t : State) : Prop where
  params : t.params = s.params
  moves : t.moves = s.moves
  draws : t.draws = s.draws

/-- The clock and timer fields of the Clock State's lifecycle (R35). -/
structure SameConfiguration (s t : State) : Prop where
  wsReq : t.wsReq = s.wsReq
  hsoscOn : t.hsoscOn = s.hsoscOn
  sw : t.sw = s.sw
  hpre : t.hpre = s.hpre
  ppre : t.ppre = s.ppre
  en : t.en = s.en
  period : t.period = s.period
  hz : t.hz = s.hz

/-! ### Registers as fields -/

/-- The value of a field, zero-extended; `BS` and `BR` store nothing and read 0 (R25). -/
def State.fieldWord (s : State) : RegField → Word
  | .wsReq => s.wsReq.setWidth 32
  | .wsAct => s.wsAct.setWidth 32
  | .hsoscOn => s.hsoscOn.setWidth 32
  | .hsoscRdy => s.hsoscRdy.setWidth 32
  | .sw => s.sw.setWidth 32
  | .sws => s.sws.setWidth 32
  | .hpre => s.hpre.setWidth 32
  | .ppre => s.ppre.setWidth 32
  | .en => s.en.setWidth 32
  | .period => s.period.setWidth 32
  | .hz => s.hz
  | .bs => 0#32
  | .br => 0#32
  | .out => s.out.setWidth 32

/-- Field `f` holds a value that R63 reserves. -/
def State.HoldsReserved (s : State) (f : RegField) : Prop :=
  match f with
  | .wsReq => ∀ row ∈ s.params.wsTable, row.2 ≠ s.wsReq.toNat
  | .wsAct => False
  | .hsoscOn => False
  | .hsoscRdy => False
  | .sw => 2 ≤ s.sw.toNat
  | .sws => 2 ≤ s.sws.toNat
  | .hpre => s.hpre ≠ 0#4
  | .ppre => s.ppre ≠ 0#3
  | .en => False
  | .period => s.en = 1#1 ∧ s.period = 0#24
  | .hz => False
  | .bs => False
  | .br => False
  | .out => False

/-- A state whose parameters are well formed and which holds no reserved field value: the states in
which the spec gives every agent its step (R12, R63). -/
structure State.Runs (s : State) : Prop where
  params : s.params.WellFormed
  fields : s.reservedFields = []

/-- Whether the tick being serviced toggles the output: the incremented count is a multiple of the
toggle period (R95). -/
def State.togglesNext (s : State) : Bool :=
  decide ((s.tickCount + 1#32).toNat % Config.togglePeriod = 0)

/-- The register whose stored bits an operation changes: that of its write descriptor, or `PIN_DATA`
for a tick that toggles, whose `PIN_BSR` write acts on it (R46, R60, R95). -/
def State.storedRegister (s : State) (i : Instr) : Option Reg :=
  match access s.params i with
  | .write d => some d.reg
  | .poll _ => none
  | .none => none
  | .handler => if s.togglesNext then some .pinData else none

/-! ### The invariant of the configuration order -/

/-- A state in which everything stands as the fixed order of operations leaves it: each request field
is written exactly when the sequencer has passed its operation, each awaited status is true once the
sequencer has passed its wait, and no mark but those the schedule or a host read can cause is set. -/
structure State.InOrder (s : State) : Prop where
  params : s.params.WellFormed
  code : s.seqState.toNat ≤ 9
  wsReq : s.wsReq.toNat = if 1 ≤ s.seqState.toNat then s.params.flashWaitCycles else 0
  wsAct : s.wsAct = 0#3 ∨ s.wsAct = s.wsReq
  latched : 2 ≤ s.seqState.toNat → s.wsAct = s.wsReq
  hsoscOn : s.hsoscOn = if 3 ≤ s.seqState.toNat then 1#1 else 0#1
  readyOn : s.hsoscRdy = 1#1 → s.hsoscOn = 1#1
  ready : 4 ≤ s.seqState.toNat → s.hsoscRdy = 1#1
  sw : s.sw = if 5 ≤ s.seqState.toNat then 1#2 else 0#2
  sws : s.sws = 0#2 ∨ s.sws = s.sw
  switched : 6 ≤ s.seqState.toNat → s.sws = 1#2
  hpre : s.hpre = 0#4
  ppre : s.ppre = 0#3
  period : s.period.toNat = if 7 ≤ s.seqState.toNat then s.params.tickPeriodCycles else 0
  en : s.en = if 8 ≤ s.seqState.toNat then 1#1 else 0#1
  hz : s.hz.toNat = if 9 ≤ s.seqState.toNat then s.params.targetHz else s.params.defaultHz
  pending : s.tickPending = 1#1 → s.en = 1#1
  marks : ∀ m ∈ s.faults, (∃ c, m = .tickOverrun c) ∨
    ∃ off, m = .reservedAccess (.offset off) ∧ Reg.ofOffset off = none

/-- The values of the first state with `cfg_done` (R134). -/
structure State.Complete (s : State) : Prop where
  done : s.cfgDone = true
  wsReq : s.wsReq.toNat = s.params.flashWaitCycles
  wsAct : s.wsAct.toNat = s.params.flashWaitCycles
  hsoscOn : s.hsoscOn = 1#1
  hsoscRdy : s.hsoscRdy = 1#1
  sw : s.sw = 1#2
  sws : s.sws = 1#2
  hpre : s.hpre = 0#4
  ppre : s.ppre = 0#3
  period : s.period.toNat = s.params.tickPeriodCycles
  en : s.en = 1#1
  hz : s.hz.toNat = s.params.targetHz

/-! ### The sequencer's progress read off the trace -/

/-- The write or read a sequencer operation with code `code` may emit, and the code after it: a W
operation goes on; a P operation goes on when the value read is the awaited one, else stays (R67, R68).
`none`: the event is not one this code can emit. -/
def replayEvent (p : Config.Params) (code : Nat) (e : Event) : Option Nat :=
  match e with
  | .write op off m d =>
    match decode op with
    | .ok i =>
      match access p i with
      | .write a =>
        if op.toNat = code ∧ off = a.reg.offset ∧ m = a.wmask ∧ d = a.data then some (code + 1) else none
      | .poll _ => none
      | .none => none
      | .handler => none
    | .error _ => none
  | .read op off v =>
    match decode op with
    | .ok i =>
      match access p i with
      | .write _ => none
      | .poll a =>
        if op.toNat = code ∧ off = a.reg.offset then
          (if a.sees v then some (code + 1) else some code)
        else none
      | .none => none
      | .handler => none
    | .error _ => none
  | .env _ => some code
  | .fire => some code
  | .tgl _ _ _ => some code
  | .hostRead _ _ => some code

/-- The code the sequencer has reached after a trace, starting from code 0; `none` where the trace holds
a write or read out of order. -/
def replay (p : Config.Params) (trace : List Event) : Option Nat :=
  trace.foldl (fun code e => code.bind fun c => replayEvent p c e) (some 0)

/-- The trace tells the sequencer's state: its writes and reads, in their order, are those of the
operations before `seq_state`, each write once and each wait ended by the awaited value (R34, R134). -/
def State.TraceTellsCode (s : State) : Prop := replay s.params s.trace = some s.seqState.toNat

/-! ### Counting ticks -/

/-- One execution of the tick handler (R32). -/
def Event.isTick : Event → Bool
  | .tgl _ _ _ => true
  | _ => false

/-- One execution of the tick handler that toggles the output (R32). -/
def Event.isToggle : Event → Bool
  | .tgl _ toggled _ => toggled
  | _ => false

/-- The register write an event stands for: a `W` event for its own, a `TGL` event with `toggled` for
the set/clear write it implies (R95). -/
def Event.registerWrite : Event → Option (BitVec 5 × BitVec 8 × Word × Word)
  | .write op off m d => some (op, off, m, d)
  | .tgl _ true l => some (0x10#5, 0x18#8, 3#32, if l = 1#1 then 1#32 else 2#32)
  | _ => none

/-- A register write made by the operation with id `op`. -/
def Event.isWriteBy (op : BitVec 5) : Event → Bool
  | .write o _ _ _ => o == op
  | _ => false

/-- How many ticks the trace has serviced since reset. -/
def State.ticksServiced (s : State) : Nat := s.trace.countP Event.isTick

/-- How many toggles the trace holds since reset. -/
def State.toggles (s : State) : Nat := s.trace.countP Event.isToggle

/-- The counting law of R100 for any number of ticks n = q * 2^32 + r: `tick_count` is r, the toggles
are q * 4294968 + r / 1000, and `pin_state` is the parity of r / 1000; the ticks that toggled are those
whose count is a multiple of 1000. -/
structure State.CountingLaw (s : State) : Prop where
  count : s.tickCount.toNat = s.ticksServiced % 2 ^ 32
  toggles : s.toggles = s.ticksServiced / 2 ^ 32 * 4294968 + s.ticksServiced % 2 ^ 32 / 1000
  pin : s.pinState.toNat = s.ticksServiced % 2 ^ 32 / 1000 % 2
  multiples : ∀ c toggled level, .tgl c toggled level ∈ s.trace → (toggled = true ↔ c.toNat % 1000 = 0)

/-- `pin_state` mirrors the output latch once a toggle has happened, and is 0 before (R98). -/
def State.Mirrors (s : State) : Prop :=
  if s.toggles = 0 then s.pinState = 0#1 else s.out = s.pinState

/-- Before the timer is enabled no tick has fired, none is pending and none has been serviced (R54,
R94). -/
def State.QuietUntilEnabled (s : State) : Prop :=
  s.en = 1#1 ∨ (s.tickPending = 0#1 ∧ ∀ e ∈ s.trace, e ≠ .fire ∧ e.isTick = false)

/-- A firing of the tick timer (R32). -/
def Event.isFire : Event → Bool
  | .fire => true
  | _ => false

/-- In a run without the mark `TickOverrun` every firing has been serviced, but for one that is still
pending (R127). -/
def State.FiringsServiced (s : State) : Prop :=
  (∀ c, .tickOverrun c ∉ s.faults) → s.trace.countP Event.isFire = s.ticksServiced + s.tickPending.toNat

/-- `n` ticks serviced one after another. -/
def State.afterTicks (s : State) : Nat → State
  | 0 => s
  | n + 1 => (s.afterTicks n).takeTick

/-! ### Runs (R8, R121, R123, R133) -/

/-- Whether the step of the agent a move names is enabled (R66, R79, R84, R87, R92, R94, R108). A host
move is always possible (R118). -/
def State.enabled (s : State) : Config.Move → Bool
  | .sequencer => decide (s.seqState.toNat ≤ 9)
  | .toggler => s.tickPending == 1#1
  | .flashController => s.flashLatchEnabled
  | .oscillator => s.oscReadyEnabled
  | .multiplexer => s.muxSwitchEnabled
  | .tickTimer => s.tickFireEnabled
  | .hostRead _ => true
  | .rst => true

/-- The six agents of R7. -/
def agents : List Config.Move :=
  [.sequencer, .toggler, .flashController, .oscillator, .multiplexer, .tickTimer]

/-- An infinite run from the reset state under the launch premises (R121): `r n` is the n-th state and
`m n` the move taken in it, none of them `rst`, which would end the run (R123). -/
structure IsRun (p : Config.Params) (level : BitVec 1) (r : Nat → State) (m : Nat → Config.Move) :
    Prop where
  params : p.WellFormed
  start : r 0 = State.resetWith p level
  moves : ∀ n, m n ≠ .rst
  steps : ∀ n, move (m n) (r n) = .next (r (n + 1))

/-- Weak fairness (R133): an agent whose step stays enabled from some point on takes it at some later
point. -/
def WeaklyFair (r : Nat → State) (m : Nat → Config.Move) : Prop :=
  ∀ a ∈ agents, ∀ n, (∀ k, n ≤ k → (r k).enabled a = true) → ∃ k, n ≤ k ∧ m k = a

/-- The hardware the waits await works: `OSC_STARTS`, `MUX_SWITCHES`, and `FLASH_LATCHES` unless no wait
state is needed (R131, R134). -/
def HardwareAnswers (p : Config.Params) : Prop :=
  p.oscStarts = true ∧ p.muxSwitches = true ∧ (p.flashLatches = true ∨ p.flashWaitCycles = 0)

end Sys2Proof.Machine
end

