-- ==== Sys2Proof/Certificates/Slice0/Obligations.lean ====
section
/-! DEFINITION. The statements for the provers, each from the rules of spec/ its docstring names. -/

open Sys2Proof Sys2Proof.Machine Sys2Proof.Config

/-! ### Decoding -/

/-- R58: an id decodes to an operation exactly when it is that operation's id, so at most one row
matches; R62: the ids 0x0A to 0x0F and 0x11 to 0x1F name no operation, and no other id does so. An
operation written as a byte is read back, and the bytes after it are left. -/
def Obligations.DecodeInvertsEncode : Prop :=
  (∀ (id : BitVec 5) (i : Instr), decode id = .ok i ↔ encode i = id) ∧
  (∀ id : BitVec 5, (∃ e, decode id = .error e) ↔
    (0x0A ≤ id.toNat ∧ id.toNat ≤ 0x0F) ∨ (0x11 ≤ id.toNat ∧ id.toNat ≤ 0x1F)) ∧
  ∀ (i : Instr) (rest : List Byte), decodeBytes (encodeBytes i ++ rest) = .ok (i, rest)

/-- R55, R57: one word of each family, written out from the table of R57, decodes to its operation. -/
def Obligations.TableWordsDecode : Prop :=
  decodeTableWord 8 0b00001 = some .fwsWait ∧ decodeTableWord 8 0b00100 = some .muxSel ∧
  decodeTableWord 8 0b00110 = some .tickLoad ∧ decodeTableWord 8 0b01001 = some .idle ∧
  decodeTableWord 8 0b10000 = some .tglTick ∧ decodeTableWord 8 0b01010 = none ∧
  decodeTableWord 8 0b10001 = none

/-! ### A step runs the decoded operation -/

/-- R58, R66: where the sequencer moves next and `seq_state` names operation `i`, a step is `exec` of
`i` on the state with that move taken from the schedule. -/
def Obligations.StepRunsSequencerOperation : Prop :=
  ∀ (s : State) (i : Instr), s.Runs → s.nextMove = .sequencer →
    encode i = mkId 0#1 s.seqState → step s = exec i s.popMove

/-- R58, R108: where the toggler moves next, a step is `exec` of TGL.TICK when a tick is pending, and
otherwise only takes the move from the schedule. -/
def Obligations.StepRunsTogglerOperation : Prop :=
  ∀ s : State, s.Runs → s.nextMove = .toggler →
    step s = if s.tickPending = 1#1 then exec .tglTick s.popMove else .next s.popMove

/-- An operation placed by `withFetchWord` is the one the next step runs (R57, R58). -/
def Obligations.PlacedOperationRunsNext : Prop :=
  ∀ (i : Instr) (s : State), s.Runs →
    step (s.withFetchWord 8 (encode i).toNat) =
      exec i (if i = .tglTick then { s with tickPending := 1#1 }
              else { s with seqState := idCode (encode i) })

/-! ### Reset -/

/-- R38: the value of every piece of state after reset; the output latch is at the level given, whatever
it is, and `rd_latch` holds no value. -/
def Obligations.ResetState : Prop :=
  ∀ (p : Params) (level : BitVec 1),
    let s := State.resetWith p level
    s.readReg .flashTiming = 0 ∧ s.readReg .oscCtrl = 0 ∧ s.readReg .clkCfg = 0 ∧
    s.readReg .tickCtrl = 0 ∧ s.readReg .tickPeriod = 0 ∧
    s.readReg .coreFreq = BitVec.ofNat 32 p.defaultHz ∧ s.readReg .pinBsr = 0 ∧
    s.readReg .pinData = level.setWidth 32 ∧ s.seqState = 0 ∧ s.rdLatch = none ∧ s.tickCount = 0 ∧
    s.pinState = 0 ∧ s.tickPending = 0 ∧ s.trace = [] ∧ s.faults = []

/-- R120: asserting `rst` puts every piece of state at its reset value in one step, from any state
whatever, the output latch at a fresh level. Only the model's own schedule fields are kept
(notes/assumptions/3.md). -/
def Obligations.RstFromAnyState : Prop :=
  ∀ s : State, s.params.WellFormed → ∃ t, move .rst s = .next t ∧ t.moves = s.moves ∧
    { t with moves := [], draws := 0 } = State.resetWith s.params (pinResetLevel s.draws)

/-! ### Registers -/

/-- R44, R48: bit `b` of a register is the bit of the field that covers it; a reserved bit reads 0, and
still does after any write, whatever the mask and the data; no operation masks one. -/
def Obligations.RegisterWordIsItsFields : Prop :=
  ∀ (s : State) (r : Reg) (b : Nat), b < 32 →
    (∀ f : RegField, f.covers r b = true → (s.readReg r).getLsbD b = (s.fieldWord f).getLsbD (b - f.lo)) ∧
    (reservedBit r b = true → (s.readReg r).getLsbD b = false ∧
      ∀ (w : RegWriter) (off : BitVec 8) (wmask data : Word),
        ((s.regWrite w off wmask data).readReg r).getLsbD b = false) ∧
    (reservedBit r b = true →
      (∀ (i : Instr) (d : WriteAccess), access s.params i = .write d → d.reg = r → d.wmask.getLsbD b = false) ∧
      ∀ level, (tglTickAccess level).reg = r → (tglTickAccess level).wmask.getLsbD b = false)

/-- R45: a write by agent `w` to any register but `PIN_BSR` gives each masked bit of a field `w` may
write its data bit, keeps every other bit of every register, and touches nothing else. A write to
`PIN_BSR` stores nothing: it changes no register but `PIN_DATA`, and, made by the sequencer, which owns
no bit of it (R36), it changes nothing whatever. -/
def Obligations.WriteChangesMaskedOwnedBits : Prop :=
  (∀ (s : State) (wmask data : Word), s.regWrite .sequencer Reg.pinBsr.offset wmask data = s) ∧
  (∀ (s : State) (w : RegWriter) (q : Reg) (wmask data : Word), q ≠ .pinData →
    (s.regWrite w Reg.pinBsr.offset wmask data).readReg q = s.readReg q) ∧
  ∀ (s : State) (w : RegWriter) (r q : Reg) (wmask data : Word) (b : Nat), b < 32 → r ≠ .pinBsr →
    ((s.regWrite w r.offset wmask data).readReg q).getLsbD b =
      (if q = r ∧ wmask.getLsbD b = true ∧ writableBit w r b = true then data.getLsbD b
       else (s.readReg q).getLsbD b) ∧
    SameStatus s (s.regWrite w r.offset wmask data) ∧
    (s.regWrite w r.offset wmask data).seqState = s.seqState ∧
    (s.regWrite w r.offset wmask data).rdLatch = s.rdLatch ∧
    SameTogglerState s (s.regWrite w r.offset wmask data) ∧
    (s.regWrite w r.offset wmask data).tickPending = s.tickPending ∧
    (s.regWrite w r.offset wmask data).trace = s.trace ∧
    (s.regWrite w r.offset wmask data).faults = s.faults

/-- R46: a write to `PIN_BSR` sets the output latch, clears it, leaves it, or, with both requests, is
refused with the mark `ReservedAccess` and changes nothing else; the new level does not depend on the
old one. -/
def Obligations.PinBsrSetsOrClears : Prop :=
  ∀ (s : State) (wmask data : Word),
    let set := wmask.getLsbD 0 && data.getLsbD 0
    let clear := wmask.getLsbD 1 && data.getLsbD 1
    let t := s.regWrite .toggler 0x18#8 wmask data
    (set = true → clear = false → t = { s with out := 1#1 }) ∧
    (set = false → clear = true → t = { s with out := 0#1 }) ∧
    (set = false → clear = false → t = s) ∧
    (set = true → clear = true → t = { s with faults := t.faults } ∧
      ∀ k, k ∈ t.faults ↔ k ∈ s.faults ∨ k = .reservedAccess (.offset 0x18#8)) ∧
    t.regWrite .toggler 0x18#8 wmask data = t

/-- R44, R118: a host read of a mapped register has no effect on the block: the state is as before but
for the event with the word read, which is the word `RegRead` gives. -/
def Obligations.HostReadHasNoEffect : Prop :=
  ∀ (s : State) (r : Reg), s.Runs → s.regRead r.offset = some (s.readReg r) ∧
    move (.hostRead r.offset) s =
      .next { s with trace := s.trace ++ [.hostRead r.offset (s.readReg r)] }

/-- R42, R49: a host read at a misaligned offset or from 0x20 up gives no word, changes nothing and adds
the mark `ReservedAccess` with the offset. -/
def Obligations.BadHostReadIsMarked : Prop :=
  ∀ (s : State) (off : BitVec 8), s.Runs → off.toNat % 4 ≠ 0 ∨ 0x20 ≤ off.toNat →
    s.regRead off = none ∧ ∃ t, move (.hostRead off) s = .next t ∧
      t = { s with faults := t.faults } ∧
      ∀ k, k ∈ t.faults ↔ k ∈ s.faults ∨ k = .reservedAccess (.offset off)

/-- R43: laid out in bytes, the byte at offset `off + i` of a register holds bits `8*i+7 : 8*i`. -/
def Obligations.BytesAreLittleEndian : Prop :=
  ∀ (s : State) (r : Reg) (i : Nat), i < 4 →
    ∃ b, s.readByte (r.offset + BitVec.ofNat 8 i) = some b ∧
      ∀ j, j < 8 → b.getLsbD j = (s.readReg r).getLsbD (8 * i + j)

/-! ### Parameters and operands -/

/-- R75: `ws_lookup(f)` is the count of the first row with `f <= f_max_hz`, undefined for 0 and for a
frequency above every limit; `FLASH_WAIT_CYCLES` is the lookup of the target frequency. -/
def Obligations.LookupIsFirstRow : Prop :=
  (∀ (table : List (Nat × Nat)) (f w : Nat),
    wsLookup table f = some w ↔
      0 < f ∧ ∃ before limit after, table = before ++ (limit, w) :: after ∧ f ≤ limit ∧
        ∀ row ∈ before, row.1 < f) ∧
  ∀ p : Params, p.WellFormed → wsLookup p.wsTable p.targetHz = some p.flashWaitCycles

/-- R76: `timing_ok(f, w)` says that the least count `f` needs is defined and not above `w`; with a table
as R12 asks, what is in order at `f` is in order at every lower frequency from 1 up. -/
def Obligations.TimingOkIsMonotone : Prop :=
  (∀ (table : List (Nat × Nat)) (f w : Nat),
    timingOk table f w = true ↔ ∃ least, wsLookup table f = some least ∧ least ≤ w) ∧
  ∀ (p : Params) (f g w : Nat), p.WellFormed → timingOk p.wsTable f w = true → 1 ≤ g → g ≤ f →
    timingOk p.wsTable g w = true

/-- R88: `TICK_PERIOD_CYCLES` is the floor of the target frequency divided by 1000, between 1 and
2^24 - 1 for well-formed parameters, so the target frequency is at least 1000. -/
def Obligations.TickPeriodIsFloor : Prop :=
  ∀ p : Params, p.tickPeriodCycles * 1000 ≤ p.targetHz ∧ p.targetHz < (p.tickPeriodCycles + 1) * 1000 ∧
    (p.WellFormed → 1 ≤ p.tickPeriodCycles ∧ p.tickPeriodCycles < 2 ^ 24 ∧ 1000 ≤ p.targetHz)

/-- R59, R60: the access descriptors are the rows of the table of R60. With well-formed parameters no mask
of any operation has a reserved bit or a bit of a field its writer may not write, no data or expected bit
lies outside its mask, and every field value the operations write fits its field. -/
def Obligations.DescriptorsFitTheirFields : Prop :=
  (∀ p : Params,
    access p .fwsSet = .write ⟨.flashTiming, 0x00000007, BitVec.ofNat 32 p.flashWaitCycles⟩ ∧
    access p .fwsWait = .poll ⟨.flashTiming, 0x00000070, BitVec.ofNat 32 p.flashWaitCycles <<< 4⟩ ∧
    access p .oscOn = .write ⟨.oscCtrl, 0x00000001, 0x00000001⟩ ∧
    access p .oscWait = .poll ⟨.oscCtrl, 0x00000002, 0x00000002⟩ ∧
    access p .muxSel = .write ⟨.clkCfg, 0x000007F3, 0x00000001⟩ ∧
    access p .muxWait = .poll ⟨.clkCfg, 0x0000000C, 0x00000004⟩ ∧
    access p .tickLoad = .write ⟨.tickPeriod, 0x00FFFFFF, BitVec.ofNat 32 p.tickPeriodCycles⟩ ∧
    access p .tickEn = .write ⟨.tickCtrl, 0x00000001, 0x00000001⟩ ∧
    access p .freqRec = .write ⟨.coreFreq, 0xFFFFFFFF, BitVec.ofNat 32 p.targetHz⟩ ∧
    access p .idle = .none ∧ access p .tglTick = .handler) ∧
  tglTickAccess 1 = ⟨.pinBsr, 0x00000003, 0x00000001⟩ ∧ tglTickAccess 0 = ⟨.pinBsr, 0x00000003, 0x00000002⟩ ∧
  (Reg.all.map Reg.offset = [0x00, 0x04, 0x08, 0x0C, 0x10, 0x14, 0x18, 0x1C]) ∧
  ∀ p : Params, p.WellFormed → (∀ i : Instr, (access p i).wellFormed = true) ∧
    p.flashWaitCycles < 2 ^ RegField.wsReq.width ∧ p.tickPeriodCycles < 2 ^ RegField.period.width ∧
    p.targetHz < 2 ^ RegField.hz.width

/-- R12, R63, R105, R111: with parameters that are not well formed every move is refused, and the refusal
names the conditions of R12 that fail. With well-formed ones a move other than `rst` is refused exactly
in the states that hold a reserved field value, and answers a next state in all others; a refused run is
left in its state with marks added: `ReservedAccess` for each reserved field, and the marks of whatever
other fault condition holds in the move. That the refusal stands in front of every move but `rst`, and of
every move at all for an ill-formed set, is the model's choice (notes/assumptions/10.md and 11.md). -/
def Obligations.RefusedExactlyWhenReserved : Prop :=
  (∀ (m : Move) (s : State), ¬ s.params.WellFormed → ∃ l, move m s = .refused (.illFormedParams l) ∧
    ∀ c : ParamCheck, c ∈ l ↔ c.holds s.params = false) ∧
  ∀ (m : Move) (s : State), s.params.WellFormed → m ≠ .rst →
    ((∃ r, move m s = .refused r) ↔ ∃ f, s.HoldsReserved f) ∧
    ((∃ t, move m s = .next t) ↔ ∀ f, ¬ s.HoldsReserved f) ∧
    ∀ r, move m s = .refused r → ∃ t u, r = .reservedFieldValues t ∧ agentMove m s = .next u ∧
      t = { s with faults := t.faults } ∧
      ∀ k, k ∈ t.faults ↔ k ∈ u.faults ∨ ∃ f, s.HoldsReserved f ∧ k = .reservedAccess (.field f)

/-! ### The operation templates -/

/-- R67: an operation of format W with code c makes its register write, emits `W(c, off, wmask, data)`
and sets `seq_state` to c + 1, in one step; it reads no register into `rd_latch` and touches no status
field and nothing of the toggler's. -/
def Obligations.WriteTemplate : Prop :=
  ∀ (s : State) (i : Instr) (d : WriteAccess), encode i = mkId 0#1 s.seqState →
    access s.params i = .write d → ∃ t, exec i s = .next t ∧ t.seqState = idCode (encode i) + 1 ∧
      t.trace = s.trace ++ [.write (encode i) d.reg.offset d.wmask d.data] ∧
      (∀ q, t.readReg q = (s.regWrite .sequencer d.reg.offset d.wmask d.data).readReg q) ∧
      t.rdLatch = s.rdLatch ∧ SameStatus s t ∧ SameTogglerState s t ∧ SameModelFields s t ∧
      t.tickPending = s.tickPending ∧ (i ≠ .muxSel → t.faults = s.faults)

/-- R68: an operation of format P with code c reads its register once, captures the word in `rd_latch`,
emits `R(c, off, v)` and sets `seq_state` to c + 1 when the masked word is the expected one, else to c;
it writes no register of the register space and nothing else. -/
def Obligations.PollTemplate : Prop :=
  ∀ (s : State) (i : Instr) (d : PollAccess), encode i = mkId 0#1 s.seqState →
    access s.params i = .poll d → exec i s = .next { s with
      rdLatch := some (s.readReg d.reg)
      trace := s.trace ++ [.read (encode i) d.reg.offset (s.readReg d.reg)]
      seqState := if s.readReg d.reg &&& d.rmask = d.expect then idCode (encode i) + 1
                  else idCode (encode i) }

/-- R44, R45, R46, R68, R92, R95: the frame over the bytes of the register space. Every byte outside the
four bytes of the register an operation stores to (the register of its write descriptor, `PIN_DATA` for a
tick that toggles, none for a poll, IDLE or any other tick) reads as before. -/
def Obligations.OperationsKeepOtherBytes : Prop :=
  ∀ (s t : State) (i : Instr) (off : BitVec 8), exec i s = .next t →
    (∀ r, s.storedRegister i = some r → off &&& 0xFC#8 ≠ r.offset) → t.readByte off = s.readByte off

/-! ### The operations -/

/-- R77: FWS.SET requests the wait-state count for the target frequency, in bits 2:0 of `FLASH_TIMING`
only, and changes nothing but `WS_REQ`, `seq_state` and the trace. -/
def Obligations.FwsSetRequestsCount : Prop :=
  (∀ s : State, s.seqState = 0#4 → sequencerMove s = exec .fwsSet s) ∧
  ∀ s : State, s.seqState = 0#4 → s.params.WellFormed → ∃ t, exec .fwsSet s = .next t ∧
    t.wsReq.toNat = s.params.flashWaitCycles ∧
    t.readReg .flashTiming =
      (s.readReg .flashTiming &&& ~~~0x00000007#32) ||| BitVec.ofNat 32 s.params.flashWaitCycles ∧
    t = { s with
      wsReq := t.wsReq
      seqState := 1#4
      trace := s.trace ++ [.write 0x00#5 0x00#8 0x00000007#32 (BitVec.ofNat 32 s.params.flashWaitCycles)] }

/-- R78: FWS.WAIT polls `FLASH_TIMING` once and goes on exactly when `WS_ACT` is the requested count; it
changes nothing but `rd_latch`, `seq_state` and the trace. -/
def Obligations.FwsWaitAwaitsLatch : Prop :=
  (∀ s : State, s.seqState = 1#4 → sequencerMove s = exec .fwsWait s) ∧
  ∀ s : State, s.seqState = 1#4 → s.params.WellFormed →
    exec .fwsWait s = .next { s with
      rdLatch := some (s.readReg .flashTiming)
      trace := s.trace ++ [.read 0x01#5 0x00#8 (s.readReg .flashTiming)]
      seqState := if ((s.readReg .flashTiming).extractLsb' 4 3).toNat = s.params.flashWaitCycles then 2#4
                  else 1#4 }

/-- R82: OSC.ON sets bit 0 of `OSC_CTRL` and changes nothing but `HSOSC_ON`, `seq_state` and the
trace. -/
def Obligations.OscOnEnablesOscillator : Prop :=
  (∀ s : State, s.seqState = 2#4 → sequencerMove s = exec .oscOn s) ∧
  ∀ s : State, s.seqState = 2#4 → ∃ t, exec .oscOn s = .next t ∧
    t.readReg .oscCtrl = s.readReg .oscCtrl ||| 0x00000001#32 ∧
    t = { s with
      hsoscOn := 1#1
      seqState := 3#4
      trace := s.trace ++ [.write 0x02#5 0x04#8 0x00000001#32 0x00000001#32] }

/-- R83: OSC.WAIT polls `OSC_CTRL` once and goes on exactly when bit 1 is 1; it changes nothing but
`rd_latch`, `seq_state` and the trace. -/
def Obligations.OscWaitAwaitsReady : Prop :=
  (∀ s : State, s.seqState = 3#4 → sequencerMove s = exec .oscWait s) ∧
  ∀ s : State, s.seqState = 3#4 → exec .oscWait s = .next { s with
    rdLatch := some (s.readReg .oscCtrl)
    trace := s.trace ++ [.read 0x03#5 0x04#8 (s.readReg .oscCtrl)]
    seqState := if (s.readReg .oscCtrl).getLsbD 1 then 4#4 else 3#4 }

/-- R85: MUX.SEL writes `SW = 1`, `HPRE = 0` and `PPRE = 0` in one register write, leaves `SWS` as it
was, and adds the mark `SwitchBeforeReady` with `seq_state` exactly when the oscillator is not ready. -/
def Obligations.MuxSelSelectsHighSpeed : Prop :=
  (∀ s : State, s.seqState = 4#4 → sequencerMove s = exec .muxSel s) ∧
  ∀ s : State, s.seqState = 4#4 → ∃ t, exec .muxSel s = .next t ∧
    t.readReg .clkCfg = (s.readReg .clkCfg &&& ~~~0x000007F3#32) ||| 0x00000001#32 ∧
    t = { s with
      sw := 1#2
      hpre := 0#4
      ppre := 0#3
      seqState := 5#4
      trace := s.trace ++ [.write 0x04#5 0x08#8 0x000007F3#32 0x00000001#32]
      faults := t.faults } ∧
    (s.hsoscRdy = 1#1 → t.faults = s.faults) ∧
    (s.hsoscRdy = 0#1 → ∀ k, k ∈ t.faults ↔ k ∈ s.faults ∨ k = .switchBeforeReady s.seqState)

/-- R86: MUX.WAIT polls `CLK_CFG` once and goes on exactly when the two bits 3:2 are 1; it changes
nothing but `rd_latch`, `seq_state` and the trace. -/
def Obligations.MuxWaitAwaitsSwitch : Prop :=
  (∀ s : State, s.seqState = 5#4 → sequencerMove s = exec .muxWait s) ∧
  ∀ s : State, s.seqState = 5#4 → exec .muxWait s = .next { s with
    rdLatch := some (s.readReg .clkCfg)
    trace := s.trace ++ [.read 0x05#5 0x08#8 (s.readReg .clkCfg)]
    seqState := if (s.readReg .clkCfg).extractLsb' 2 2 = 1#2 then 6#4 else 5#4 }

/-- R89: TICK.LOAD writes the tick period in cycles to `TICK_PERIOD` and changes nothing but `PERIOD`,
`seq_state` and the trace. -/
def Obligations.TickLoadWritesPeriod : Prop :=
  (∀ s : State, s.seqState = 6#4 → sequencerMove s = exec .tickLoad s) ∧
  ∀ s : State, s.seqState = 6#4 → s.params.WellFormed → ∃ t, exec .tickLoad s = .next t ∧
    (t.readReg .tickPeriod).toNat = s.params.tickPeriodCycles ∧
    t = { s with
      period := t.period
      seqState := 7#4
      trace := s.trace ++
        [.write 0x06#5 0x10#8 0x00FFFFFF#32 (BitVec.ofNat 32 s.params.tickPeriodCycles)] }

/-- R90: TICK.EN sets `EN` and changes nothing but `EN`, `seq_state` and the trace; the timer's step is
enabled from then on. -/
def Obligations.TickEnStartsTimer : Prop :=
  (∀ s : State, s.seqState = 7#4 → sequencerMove s = exec .tickEn s) ∧
  ∀ s : State, s.seqState = 7#4 → ∃ t, exec .tickEn s = .next t ∧ t.readReg .tickCtrl = 0x00000001#32 ∧
    t.enabled .tickTimer = true ∧
    t = { s with
      en := 1#1
      seqState := 8#4
      trace := s.trace ++ [.write 0x07#5 0x0C#8 0x00000001#32 0x00000001#32] }

/-- R91: FREQ.REC records the target frequency in `CORE_FREQ`, changes nothing but `HZ`, `seq_state` and
the trace, and makes `cfg_done` true. -/
def Obligations.FreqRecRecordsFrequency : Prop :=
  (∀ s : State, s.seqState = 8#4 → sequencerMove s = exec .freqRec s) ∧
  ∀ s : State, s.seqState = 8#4 → s.params.WellFormed → ∃ t, exec .freqRec s = .next t ∧
    (t.readReg .coreFreq).toNat = s.params.targetHz ∧ t.cfgDone = true ∧
    t = { s with
      hz := t.hz
      seqState := 9#4
      trace := s.trace ++ [.write 0x08#5 0x14#8 0xFFFFFFFF#32 (BitVec.ofNat 32 s.params.targetHz)] }

/-- R92: IDLE maps any state with `seq_state = 9` to itself. -/
def Obligations.IdleChangesNothing : Prop :=
  ∀ s : State, s.seqState = 9#4 → sequencerMove s = exec .idle s ∧ exec .idle s = .next s

/-- R95: TGL.TICK counts the tick modulo 2^32 and clears the request; when the incremented count is a
multiple of 1000 it inverts `pin_state` and drives the output latch to the new record, else it leaves
both; nothing else changes. -/
def Obligations.TglTickCountsAndToggles : Prop :=
  ∀ s : State, s.tickPending = 1#1 → ∃ t, exec .tglTick s = .next t ∧
    t.tickCount.toNat = (s.tickCount.toNat + 1) % 2 ^ 32 ∧
    (t.tickCount.toNat % 1000 = 0 →
      t = { s with
        tickCount := t.tickCount
        tickPending := 0#1
        pinState := ~~~s.pinState
        out := ~~~s.pinState
        trace := s.trace ++ [.tgl t.tickCount true (~~~s.pinState)] }) ∧
    (t.tickCount.toNat % 1000 ≠ 0 →
      t = { s with
        tickCount := t.tickCount
        tickPending := 0#1
        trace := s.trace ++ [.tgl t.tickCount false s.pinState] })

/-- R62: with `seq_state` in 10 to 15 the sequencer has no step; the model adds the mark
`IllegalSeqState` and changes nothing else. A move that names another agent whose step is not enabled
changes nothing: the model's choice (notes/assumptions/4.md). -/
def Obligations.MovesWithoutStep : Prop :=
  (∀ s : State, s.Runs → 10 ≤ s.seqState.toNat → ∃ t, move .sequencer s = .next t ∧
    t = { s with faults := t.faults } ∧
    ∀ k, k ∈ t.faults ↔ k ∈ s.faults ∨ k = .illegalSeqState s.seqState) ∧
  ∀ (a : Move) (s : State), a ∈ agents → a ≠ .sequencer → s.Runs → s.enabled a = false → move a s = .next s

/-! ### The environment agents -/

/-- R79: FlashLatch is enabled when the controller works and the two counts differ, and copies the
requested count to the status field. -/
def Obligations.FlashLatchCopiesRequest : Prop :=
  ∀ s : State,
    (s.enabled .flashController = true ↔ s.params.flashLatches = true ∧ s.wsAct ≠ s.wsReq) ∧
    (s.Runs → s.enabled .flashController = true →
      move .flashController s = .next { s with wsAct := s.wsReq, trace := s.trace ++ [.env .flashLatch] })

/-- R84: OscReady is enabled when the oscillator works, is on and is not ready, and sets the ready
bit. -/
def Obligations.OscReadyNeedsEnable : Prop :=
  ∀ s : State,
    (s.enabled .oscillator = true ↔ s.params.oscStarts = true ∧ s.hsoscOn = 1#1 ∧ s.hsoscRdy = 0#1) ∧
    (s.Runs → s.enabled .oscillator = true →
      move .oscillator s = .next { s with hsoscRdy := 1#1, trace := s.trace ++ [.env .oscReady] })

/-- R87: MuxSwitch is enabled when the multiplexer works and the wanted source is another one, is 0 or 1 and
is ready; it makes that source live, with the mark `FlashTimingViolation` exactly when the latched count is
too small for the new frequency. -/
def Obligations.MuxSwitchNeedsReadySource : Prop :=
  ∀ s : State,
    (s.enabled .multiplexer = true ↔
      s.params.muxSwitches = true ∧ s.sws ≠ s.sw ∧ s.sw.toNat < 2 ∧ s.srcReady s.sw = true) ∧
    (s.Runs → s.enabled .multiplexer = true → ∃ t f, move .multiplexer s = .next t ∧
      s.baseHz s.sw = some f ∧ t.sysclkHz = some f ∧
      t = { s with sws := s.sw, trace := s.trace ++ [.env .muxSwitch], faults := t.faults } ∧
      (timingOk s.params.wsTable f s.wsAct.toNat = true → t.faults = s.faults) ∧
      (timingOk s.params.wsTable f s.wsAct.toNat = false →
        ∀ k, k ∈ t.faults ↔ k ∈ s.faults ∨ k = .flashTimingViolation s.sw s.wsAct))

/-- R94: TickFire is enabled while `EN` is 1; a firing makes a tick pending, or, where one is pending
already, loses the new one with the mark `TickOverrun`. -/
def Obligations.TickFireOrOverrun : Prop :=
  ∀ s : State, (s.enabled .tickTimer = true ↔ s.en = 1#1) ∧
    (s.Runs → s.enabled .tickTimer = true → ∃ t, move .tickTimer s = .next t ∧
      (s.tickPending = 0#1 → t = { s with tickPending := 1#1, trace := s.trace ++ [.fire] }) ∧
      (s.tickPending = 1#1 → t = { s with trace := s.trace ++ [.fire], faults := t.faults } ∧
        ∀ k, k ∈ t.faults ↔ k ∈ s.faults ∨ k = .tickOverrun s.tickCount))

/-! ### Rules of the whole machine -/

/-- R36, R107, R130: each piece of state has one writer. A move other than `rst` changes only what its
agent owns; `tick_pending` is set by the tick timer and cleared by the toggler only. -/
def Obligations.OnlyOwnersWrite : Prop :=
  ∀ (m : Move) (s t : State), m ≠ .rst → move m s = .next t →
    SameModelFields s t ∧
    (m ≠ .sequencer → SameSequencerState s t) ∧
    (m ≠ .toggler → SameTogglerState s t) ∧
    (m ≠ .flashController → t.wsAct = s.wsAct) ∧
    (m ≠ .oscillator → t.hsoscRdy = s.hsoscRdy) ∧
    (m ≠ .multiplexer → t.sws = s.sws) ∧
    (m ≠ .tickTimer → m ≠ .toggler → t.tickPending = s.tickPending) ∧
    (m = .tickTimer → t.tickPending = s.tickPending ∨ t.tickPending = 1#1) ∧
    (m = .toggler → t.tickPending = s.tickPending ∨ t.tickPending = 0#1)

/-- R27, R66: the sequencer has a step in every state with `seq_state` in 0 to 8, whatever the rest of
the state is: that of the operation `seq_state` names. Its step in code 9 is IDLE, and in the codes 10 to
15 it has none, only a mark. It never skips a code: only the sequencer changes `seq_state`, and only
from c to c + 1. -/
def Obligations.SequencerNeverSkips : Prop :=
  (∀ (s : State) (i : Instr), encode i = mkId 0#1 s.seqState → sequencerMove s = exec i s) ∧
  (∀ s : State, s.seqState = 9#4 → sequencerMove s = .next s) ∧
  (∀ s : State, 10 ≤ s.seqState.toNat → ∃ t, sequencerMove s = .next t ∧ t = { s with faults := t.faults }) ∧
  (∀ s : State, s.seqState.toNat ≤ 8 → ∃ t, sequencerMove s = .next t ∧
    (t.seqState = s.seqState ∨ t.seqState = s.seqState + 1)) ∧
  ∀ (m : Move) (s t : State), m ≠ .rst → move m s = .next t →
    t.seqState = s.seqState ∨
    (m = .sequencer ∧ s.seqState.toNat ≤ 8 ∧ t.seqState = s.seqState + 1)

/-- R32, R33: a move other than `rst` appends at most one event to the trace, and `faults` only grows
and stays a set. -/
def Obligations.GhostStateOnlyGrows : Prop :=
  ∀ (m : Move) (s t : State), m ≠ .rst → move m s = .next t →
    (t.trace = s.trace ∨ ∃ e, t.trace = s.trace ++ [e]) ∧ (∀ k ∈ s.faults, k ∈ t.faults) ∧
    (s.faults.Nodup → t.faults.Nodup)

/-- R105: a mark that a move adds is one of five, added by the agent, under the condition and with the
value its row gives. -/
def Obligations.MarksHaveTheirCauses : Prop :=
  ∀ (m : Move) (s t : State) (k : Mark), move m s = .next t → k ∈ t.faults → k ∉ s.faults →
    match k with
    | .flashTimingViolation source count =>
      m = .multiplexer ∧ source = s.sw ∧ count = s.wsAct ∧
        ∀ f, s.baseHz s.sw = some f → timingOk s.params.wsTable f s.wsAct.toNat = false
    | .switchBeforeReady code =>
      m = .sequencer ∧ s.seqState = 4#4 ∧ code = s.seqState ∧ s.hsoscRdy = 0#1
    | .tickOverrun count => m = .tickTimer ∧ s.tickPending = 1#1 ∧ count = s.tickCount
    | .illegalSeqState code => m = .sequencer ∧ 10 ≤ s.seqState.toNat ∧ code = s.seqState
    | .reservedAccess site => ∃ off, m = .hostRead off ∧ site = .offset off ∧ s.regRead off = none

/-- R35, R128, R130: once `cfg_done` is true no move but `rst` changes a clock or timer field or leaves
`cfg_done`. -/
def Obligations.ConfigurationStaysDone : Prop :=
  ∀ (m : Move) (s t : State), s.cfgDone = true → m ≠ .rst → move m s = .next t →
    SameConfiguration s t ∧ t.cfgDone = true

/-- R111: a sequencer step and the service of a pending tick reach the same state in either order, but
for the position of their events in the trace: the two traces are permutations of each other. -/
def Obligations.SequencerAndTickCommute : Prop :=
  ∀ s : State, s.tickPending = 1#1 → ∃ a ab b ba,
    sequencerMove s = .next a ∧ togglerMove a = .next ab ∧
    togglerMove s = .next b ∧ sequencerMove b = .next ba ∧
    { ab with trace := [] } = { ba with trace := [] } ∧ ab.trace.Perm ba.trace

/-! ### The invariant of the configuration order -/

/-- R38: the invariants of this file hold at reset, for every well-formed instantiation and either output
level: the configuration is in order, the empty trace tells code 0, the counting law holds, `pin_state`
is 0 with no toggle yet, no tick has come, and none is unserviced. `State.reset` is such a state; that it
takes the reference instantiation is the model's choice (notes/assumptions/2.md). -/
def Obligations.ResetEstablishesInvariants : Prop :=
  (∀ (p : Params) (level : BitVec 1), p.WellFormed →
    let s := State.resetWith p level
    s.InOrder ∧ s.TraceTellsCode ∧ s.CountingLaw ∧ s.Mirrors ∧ s.QuietUntilEnabled ∧
      s.FiringsServiced) ∧
  (∃ level, { State.reset with draws := 0 } = State.resetWith Params.reference level) ∧
  State.reset.InOrder ∧ State.reset.TraceTellsCode ∧ State.reset.CountingLaw ∧ State.reset.Mirrors ∧
  State.reset.QuietUntilEnabled ∧ State.reset.FiringsServiced

/-- Every step from a state in order completes, whatever the schedule chooses, and its state is in order
(R34, R63, R105, R122). So no reserved field value, no refusal and no mark but `TickOverrun` and that of
a bad host read occurs in a run from reset. -/
def Obligations.StepsStayInOrder : Prop :=
  ∀ s : State, s.InOrder → ∃ t, step s = .next t ∧ t.InOrder

/-- R124, R125, R126: in every state in order the latched wait-state count is enough for the system
clock, the high-speed source is selected only when it is ready, and the timer runs only on the target
clock with its period written. -/
def Obligations.HazardsAreRespected : Prop :=
  ∀ s : State, s.InOrder →
    (∃ f, s.sysclkHz = some f ∧ timingOk s.params.wsTable f s.wsAct.toNat = true) ∧
    (s.sw = 1#2 → s.hsoscRdy = 1#1) ∧
    (s.en = 1#1 → s.sws = 1#2 ∧ s.period.toNat = s.params.tickPeriodCycles)

/-- R81: the frequency functions, and the readiness of a source. R81, R91, R118: in every state in order the
three frequencies are defined and equal, the default one before the switch and the target one after it;
once `cfg_done` is true `CORE_FREQ` holds the effective frequency. -/
def Obligations.FrequenciesAreDefined : Prop :=
  (∀ s : State, s.baseHz 0 = some s.params.defaultHz ∧ s.baseHz 1 = some s.params.targetHz ∧
    s.baseHz 2 = none ∧ s.baseHz 3 = none ∧ s.sysclkHz = s.baseHz s.sws ∧
    s.hclkHz = (if s.hpre = 0#4 then s.sysclkHz else none) ∧
    s.pclkHz = (if s.ppre = 0#3 then s.hclkHz else none) ∧
    s.srcReady 0 = true ∧ (s.srcReady 1 = true ↔ s.hsoscRdy = 1#1)) ∧
  ∀ s : State, s.InOrder →
    s.sysclkHz = some (if s.sws = 1#2 then s.params.targetHz else s.params.defaultHz) ∧
    s.hclkHz = s.sysclkHz ∧ s.pclkHz = s.sysclkHz ∧
    (s.cfgDone = true → s.hclkHz = some (s.readReg .coreFreq).toNat)

/-- R73: each awaited condition, once true, stays true until reset. -/
def Obligations.AwaitedConditionsPersist : Prop :=
  ∀ (m : Move) (s t : State), s.InOrder → m ≠ .rst → move m s = .next t →
    (s.wsAct.toNat = s.params.flashWaitCycles → t.wsAct.toNat = t.params.flashWaitCycles) ∧
    (s.oscillatorReady = true → t.oscillatorReady = true) ∧
    (s.clockSwitched = true → t.clockSwitched = true)

/-- R34, R134: in a state in order with `cfg_done` the three awaited statuses are true and every field
holds the value of the completed configuration. -/
def Obligations.DoneMeansComplete : Prop :=
  ∀ s : State, s.InOrder → s.cfgDone = true →
    s.Complete ∧ s.wsLatched = true ∧ s.oscillatorReady = true ∧ s.clockSwitched = true

/-! ### The trace -/

/-- R67, R68: every step keeps the agreement of the trace with the sequencer's state: the sequencer's
writes and reads, replayed from code 0, reach `seq_state`. -/
def Obligations.TraceKeepsTellingCode : Prop :=
  ∀ s t : State, s.TraceTellsCode → step s = .next t → t.TraceTellsCode

/-- R34, R69, R78: where the trace tells the code and `cfg_done` is true, the trace holds FWS.SET's
write, then a read by FWS.WAIT with `WS_ACT` the requested count, then OSC.ON's write, then a read by
OSC.WAIT with the ready bit, then MUX.SEL's write, then a read by MUX.WAIT with the switch status 1. -/
def Obligations.DoneTraceHasThePolls : Prop :=
  ∀ s : State, s.params.WellFormed → s.TraceTellsCode → s.cfgDone = true →
    ∃ (a b c d e f g : List Event) (v1 v2 v3 m1 d1 m2 d2 m3 d3 : Word),
      s.trace = a ++ .write 0x00#5 0x00#8 m1 d1 :: (b ++ .read 0x01#5 0x00#8 v1 ::
        (c ++ .write 0x02#5 0x04#8 m2 d2 :: (d ++ .read 0x03#5 0x04#8 v2 ::
        (e ++ .write 0x04#5 0x08#8 m3 d3 :: (f ++ .read 0x05#5 0x08#8 v3 :: g))))) ∧
      (v1.extractLsb' 4 3).toNat = s.params.flashWaitCycles ∧ v2.getLsbD 1 = true ∧
      v3.extractLsb' 2 2 = 1#2

/-- R57, R128, R134: where the trace tells the code, each write operation the sequencer has passed has
written exactly once, and the others not at all. -/
def Obligations.EachWriteOnce : Prop :=
  ∀ (s : State) (i : Instr) (d : WriteAccess), s.TraceTellsCode → access s.params i = .write d →
    s.trace.countP (Event.isWriteBy (encode i)) =
      if (encode i).toNat < s.seqState.toNat then 1 else 0

/-- R54, R94: every step keeps this: until the timer is enabled no tick has fired, none is pending and
none has been serviced. -/
def Obligations.NoTickBeforeEnable : Prop :=
  ∀ s t : State, s.QuietUntilEnabled → step s = .next t → t.QuietUntilEnabled

/-! ### Counting ticks -/

/-- R100: every step keeps the counting law, for any number of serviced ticks. -/
def Obligations.CountingLawIsKept : Prop :=
  ∀ s t : State, s.CountingLaw → step s = .next t → t.CountingLaw

/-- R101: from reset, `pin_state` after tick n is the inverse of that after tick n - 1000, for
1000 <= n < 2^32, and equals that after tick n - 2000, for 2000 <= n < 2^32. -/
def Obligations.SquareWavePeriod : Prop :=
  ∀ (p : Params) (level : BitVec 1) (n : Nat), n < 2 ^ 32 →
    let pin := fun k => ((State.resetWith p level).afterTicks k).pinState
    (1000 ≤ n → pin n = ~~~pin (n - 1000)) ∧ (2000 ≤ n → pin n = pin (n - 2000))

/-- R102: after the tick numbered 4 294 967 000 the output keeps its state for 295 ticks, toggles at the
296th, which wraps the count to 0, keeps its state for 999 ticks and toggles at the 1000th after the
wrap. -/
def Obligations.WrapShortensHalfPeriod : Prop :=
  ∀ s : State, s.tickCount = 0xFFFFFED8#32 →
    (∀ k, k ≤ 295 → (s.afterTicks k).pinState = s.pinState) ∧
    (s.afterTicks 296).tickCount = 0#32 ∧
    (∀ k, 296 ≤ k → k ≤ 1295 → (s.afterTicks k).pinState = ~~~s.pinState) ∧
    (s.afterTicks 1296).tickCount = 1000#32 ∧ (s.afterTicks 1296).pinState = s.pinState

/-- R127: every step keeps this: without the mark `TickOverrun` the firings are the serviced ticks and
the pending one. -/
def Obligations.FiringsAreServiced : Prop :=
  ∀ s t : State, s.FiringsServiced → step s = .next t → t.FiringsServiced

/-- R98: every step keeps the mirror relation between `pin_state` and the output latch. -/
def Obligations.MirrorIsKept : Prop :=
  ∀ s t : State, s.Mirrors → step s = .next t → t.Mirrors

/-! ### Completion and hang -/

/-- R134: when the awaited hardware answers, every weakly fair run reaches `cfg_done`, and its first such
state holds the completed configuration and a trace of the operations in their order. -/
def Obligations.FairRunsComplete : Prop :=
  ∀ (p : Params) (level : BitVec 1) (r : Nat → State) (m : Nat → Move),
    IsRun p level r m → WeaklyFair r m → HardwareAnswers p →
    ∃ n, (∀ k, k < n → (r k).cfgDone = false) ∧ (r n).Complete ∧ (r n).TraceTellsCode

/-- R71, R131, R134: when some awaited hardware does not answer, no run, fair or not, reaches `cfg_done`:
the sequencer never passes the wait that hangs. That the run goes on is in the premise: a run here is
infinite, and `StepsStayInOrder` says that each of its states has a next one. -/
def Obligations.DeadHardwareHangs : Prop :=
  ∀ (p : Params) (level : BitVec 1) (r : Nat → State) (m : Nat → Move), IsRun p level r m → ∀ n,
    (p.flashLatches = false → p.flashWaitCycles ≠ 0 → (r n).seqState.toNat ≤ 1) ∧
    (p.oscStarts = false → (r n).seqState.toNat ≤ 3) ∧
    (p.muxSwitches = false → (r n).seqState.toNat ≤ 5)
end

