-- ==== Sys2Proof/Laws/Params.lean ====
section
/-! SUPPORT. What well-formed parameters give (spec/00_scope.md R12): each condition by name, and the
bounds that make every field value fit its field (spec/30_encoding.md R59). -/

namespace Sys2Proof.Config

theorem Params.holds_of_wellFormed {p : Params} (h : p.WellFormed) (c : ParamCheck) :
    c.holds p = true := by
  have hc : c ∈ ParamCheck.all := by cases c <;> decide
  have := List.filter_eq_nil_iff.mp h c hc
  simpa using this

theorem Params.targetRange {p : Params} (h : p.WellFormed) : 1 ≤ p.targetHz ∧ p.targetHz < 2 ^ 32 := by
  simpa [ParamCheck.holds] using p.holds_of_wellFormed h .targetRange

theorem Params.defaultRange {p : Params} (h : p.WellFormed) :
    1 ≤ p.defaultHz ∧ p.defaultHz < 2 ^ 32 := by
  simpa [ParamCheck.holds] using p.holds_of_wellFormed h .defaultRange

theorem Params.default_lt_target {p : Params} (h : p.WellFormed) : p.defaultHz < p.targetHz := by
  simpa [ParamCheck.holds] using p.holds_of_wellFormed h .defaultBelowTarget

theorem Params.periodRange {p : Params} (h : p.WellFormed) :
    1 ≤ p.tickPeriodCycles ∧ p.tickPeriodCycles < 2 ^ 24 := by
  simpa [ParamCheck.holds] using p.holds_of_wellFormed h .periodRange

theorem Params.countsFit {p : Params} (h : p.WellFormed) : ∀ row ∈ p.wsTable, row.2 ≤ 7 := by
  have := p.holds_of_wellFormed h .countsFit
  simpa [ParamCheck.holds, List.all_eq_true] using this

theorem Params.defaultLookup {p : Params} (h : p.WellFormed) :
    wsLookup p.wsTable p.defaultHz = some 0 := by
  simpa [ParamCheck.holds] using p.holds_of_wellFormed h .defaultLookupZero

/-- A defined lookup is the count of a row of the table. -/
theorem wsLookup_mem {table : List (Nat × Nat)} {f w : Nat} (h : wsLookup table f = some w) :
    ∃ row ∈ table, row.2 = w := by
  unfold wsLookup at h
  split at h
  · cases h
  · obtain ⟨row, hrow, rfl⟩ := Option.map_eq_some_iff.mp h
    exact ⟨row, List.mem_of_find?_eq_some hrow, rfl⟩

/-- `FLASH_WAIT_CYCLES` is the lookup's value (R11, R75). -/
theorem Params.targetLookup {p : Params} (h : p.WellFormed) :
    wsLookup p.wsTable p.targetHz = some p.flashWaitCycles := by
  have := p.holds_of_wellFormed h .targetLookup
  obtain ⟨w, hw⟩ := Option.isSome_iff_exists.mp this
  simp [Params.flashWaitCycles, hw]

/-- `FLASH_WAIT_CYCLES` is the count of a row, so it is no reserved `WS_REQ` value (R63). -/
theorem Params.flashWaitCycles_mem {p : Params} (h : p.WellFormed) :
    ∃ row ∈ p.wsTable, row.2 = p.flashWaitCycles := wsLookup_mem (p.targetLookup h)

theorem Params.zero_mem {p : Params} (h : p.WellFormed) : ∃ row ∈ p.wsTable, row.2 = 0 :=
  wsLookup_mem (p.defaultLookup h)

/-- `FLASH_WAIT_CYCLES` fits the three bits of `WS_REQ` (R59). -/
theorem Params.flashWaitCycles_le {p : Params} (h : p.WellFormed) : p.flashWaitCycles ≤ 7 := by
  obtain ⟨row, hrow, he⟩ := p.flashWaitCycles_mem h
  exact he ▸ p.countsFit h row hrow

end Sys2Proof.Config
end

