-- ==== Sys2Proof/Laws/State.lean ====
section
/-! SUPPORT. The small lemmas of every update of the state: one per field an update leaves alone, true by
unfolding the update once, so that no later proof unfolds a record update. -/

namespace Sys2Proof.Machine

/-! ### emit -/

@[simp] theorem State.emit_params (s : State) (e : Event) : (s.emit e).params = s.params := rfl

@[simp] theorem State.emit_wsReq (s : State) (e : Event) : (s.emit e).wsReq = s.wsReq := rfl

@[simp] theorem State.emit_wsAct (s : State) (e : Event) : (s.emit e).wsAct = s.wsAct := rfl

@[simp] theorem State.emit_hsoscOn (s : State) (e : Event) : (s.emit e).hsoscOn = s.hsoscOn := rfl

@[simp] theorem State.emit_hsoscRdy (s : State) (e : Event) : (s.emit e).hsoscRdy = s.hsoscRdy := rfl

@[simp] theorem State.emit_sw (s : State) (e : Event) : (s.emit e).sw = s.sw := rfl

@[simp] theorem State.emit_sws (s : State) (e : Event) : (s.emit e).sws = s.sws := rfl

@[simp] theorem State.emit_hpre (s : State) (e : Event) : (s.emit e).hpre = s.hpre := rfl

@[simp] theorem State.emit_ppre (s : State) (e : Event) : (s.emit e).ppre = s.ppre := rfl

@[simp] theorem State.emit_en (s : State) (e : Event) : (s.emit e).en = s.en := rfl

@[simp] theorem State.emit_period (s : State) (e : Event) : (s.emit e).period = s.period := rfl

@[simp] theorem State.emit_hz (s : State) (e : Event) : (s.emit e).hz = s.hz := rfl

@[simp] theorem State.emit_out (s : State) (e : Event) : (s.emit e).out = s.out := rfl

@[simp] theorem State.emit_seqState (s : State) (e : Event) : (s.emit e).seqState = s.seqState := rfl

@[simp] theorem State.emit_rdLatch (s : State) (e : Event) : (s.emit e).rdLatch = s.rdLatch := rfl

@[simp] theorem State.emit_tickCount (s : State) (e : Event) : (s.emit e).tickCount = s.tickCount := rfl

@[simp] theorem State.emit_pinState (s : State) (e : Event) : (s.emit e).pinState = s.pinState := rfl

@[simp] theorem State.emit_tickPending (s : State) (e : Event) : (s.emit e).tickPending = s.tickPending := rfl

@[simp] theorem State.emit_faults (s : State) (e : Event) : (s.emit e).faults = s.faults := rfl

@[simp] theorem State.emit_moves (s : State) (e : Event) : (s.emit e).moves = s.moves := rfl

@[simp] theorem State.emit_draws (s : State) (e : Event) : (s.emit e).draws = s.draws := rfl

@[simp] theorem State.emit_trace (s : State) (e : Event) : (s.emit e).trace = s.trace ++ [e] := rfl

/-! ### raise -/

@[simp] theorem State.raise_params (s : State) (m : Mark) : (s.raise m).params = s.params := rfl

@[simp] theorem State.raise_wsReq (s : State) (m : Mark) : (s.raise m).wsReq = s.wsReq := rfl

@[simp] theorem State.raise_wsAct (s : State) (m : Mark) : (s.raise m).wsAct = s.wsAct := rfl

@[simp] theorem State.raise_hsoscOn (s : State) (m : Mark) : (s.raise m).hsoscOn = s.hsoscOn := rfl

@[simp] theorem State.raise_hsoscRdy (s : State) (m : Mark) : (s.raise m).hsoscRdy = s.hsoscRdy := rfl

@[simp] theorem State.raise_sw (s : State) (m : Mark) : (s.raise m).sw = s.sw := rfl

@[simp] theorem State.raise_sws (s : State) (m : Mark) : (s.raise m).sws = s.sws := rfl

@[simp] theorem State.raise_hpre (s : State) (m : Mark) : (s.raise m).hpre = s.hpre := rfl

@[simp] theorem State.raise_ppre (s : State) (m : Mark) : (s.raise m).ppre = s.ppre := rfl

@[simp] theorem State.raise_en (s : State) (m : Mark) : (s.raise m).en = s.en := rfl

@[simp] theorem State.raise_period (s : State) (m : Mark) : (s.raise m).period = s.period := rfl

@[simp] theorem State.raise_hz (s : State) (m : Mark) : (s.raise m).hz = s.hz := rfl

@[simp] theorem State.raise_out (s : State) (m : Mark) : (s.raise m).out = s.out := rfl

@[simp] theorem State.raise_seqState (s : State) (m : Mark) : (s.raise m).seqState = s.seqState := rfl

@[simp] theorem State.raise_rdLatch (s : State) (m : Mark) : (s.raise m).rdLatch = s.rdLatch := rfl

@[simp] theorem State.raise_tickCount (s : State) (m : Mark) : (s.raise m).tickCount = s.tickCount := rfl

@[simp] theorem State.raise_pinState (s : State) (m : Mark) : (s.raise m).pinState = s.pinState := rfl

@[simp] theorem State.raise_tickPending (s : State) (m : Mark) : (s.raise m).tickPending = s.tickPending := rfl

@[simp] theorem State.raise_trace (s : State) (m : Mark) : (s.raise m).trace = s.trace := rfl

@[simp] theorem State.raise_moves (s : State) (m : Mark) : (s.raise m).moves = s.moves := rfl

@[simp] theorem State.raise_draws (s : State) (m : Mark) : (s.raise m).draws = s.draws := rfl

@[simp] theorem State.mem_raise_faults (s : State) (m k : Mark) :
    k ∈ (s.raise m).faults ↔ k ∈ s.faults ∨ k = m := by
  unfold State.raise
  by_cases h : m ∈ s.faults
  · simp only [h, if_true]
    exact ⟨Or.inl, fun hk => hk.elim id fun e => e ▸ h⟩
  · simp [h]

theorem State.raise_nodup (s : State) (m : Mark) (h : s.faults.Nodup) : (s.raise m).faults.Nodup := by
  unfold State.raise
  by_cases hm : m ∈ s.faults
  · simpa [hm] using h
  · simpa [hm, List.nodup_append] using ⟨h, fun a ha e => hm (e ▸ ha)⟩

/-! ### raiseAll -/

/-- Adding marks changes `faults` alone. -/
theorem State.raiseAll_eq (s : State) (ms : List Mark) :
    s.raiseAll ms = { s with faults := (s.raiseAll ms).faults } := by
  induction ms generalizing s with
  | nil => rfl
  | cons m ms ih => exact ih (s.raise m)

@[simp] theorem State.mem_raiseAll_faults (s : State) (ms : List Mark) (k : Mark) :
    k ∈ (s.raiseAll ms).faults ↔ k ∈ s.faults ∨ k ∈ ms := by
  induction ms generalizing s with
  | nil => simp [State.raiseAll]
  | cons m ms ih =>
    rw [List.mem_cons, ← or_assoc, ← State.mem_raise_faults]
    exact ih (s.raise m)

theorem State.raiseAll_nodup (s : State) (ms : List Mark) (h : s.faults.Nodup) :
    (s.raiseAll ms).faults.Nodup := by
  induction ms generalizing s with
  | nil => exact h
  | cons m ms ih => exact ih _ (s.raise_nodup m h)

@[simp] theorem State.raiseAll_params (s : State) (ms : List Mark) : (s.raiseAll ms).params = s.params := by
  rw [State.raiseAll_eq]

@[simp] theorem State.raiseAll_wsReq (s : State) (ms : List Mark) : (s.raiseAll ms).wsReq = s.wsReq := by
  rw [State.raiseAll_eq]

@[simp] theorem State.raiseAll_wsAct (s : State) (ms : List Mark) : (s.raiseAll ms).wsAct = s.wsAct := by
  rw [State.raiseAll_eq]

@[simp] theorem State.raiseAll_hsoscOn (s : State) (ms : List Mark) : (s.raiseAll ms).hsoscOn = s.hsoscOn := by
  rw [State.raiseAll_eq]

@[simp] theorem State.raiseAll_hsoscRdy (s : State) (ms : List Mark) : (s.raiseAll ms).hsoscRdy = s.hsoscRdy := by
  rw [State.raiseAll_eq]

@[simp] theorem State.raiseAll_sw (s : State) (ms : List Mark) : (s.raiseAll ms).sw = s.sw := by
  rw [State.raiseAll_eq]

@[simp] theorem State.raiseAll_sws (s : State) (ms : List Mark) : (s.raiseAll ms).sws = s.sws := by
  rw [State.raiseAll_eq]

@[simp] theorem State.raiseAll_hpre (s : State) (ms : List Mark) : (s.raiseAll ms).hpre = s.hpre := by
  rw [State.raiseAll_eq]

@[simp] theorem State.raiseAll_ppre (s : State) (ms : List Mark) : (s.raiseAll ms).ppre = s.ppre := by
  rw [State.raiseAll_eq]

@[simp] theorem State.raiseAll_en (s : State) (ms : List Mark) : (s.raiseAll ms).en = s.en := by
  rw [State.raiseAll_eq]

@[simp] theorem State.raiseAll_period (s : State) (ms : List Mark) : (s.raiseAll ms).period = s.period := by
  rw [State.raiseAll_eq]

@[simp] theorem State.raiseAll_hz (s : State) (ms : List Mark) : (s.raiseAll ms).hz = s.hz := by
  rw [State.raiseAll_eq]

@[simp] theorem State.raiseAll_out (s : State) (ms : List Mark) : (s.raiseAll ms).out = s.out := by
  rw [State.raiseAll_eq]

@[simp] theorem State.raiseAll_seqState (s : State) (ms : List Mark) : (s.raiseAll ms).seqState = s.seqState := by
  rw [State.raiseAll_eq]

@[simp] theorem State.raiseAll_rdLatch (s : State) (ms : List Mark) : (s.raiseAll ms).rdLatch = s.rdLatch := by
  rw [State.raiseAll_eq]

@[simp] theorem State.raiseAll_tickCount (s : State) (ms : List Mark) : (s.raiseAll ms).tickCount = s.tickCount := by
  rw [State.raiseAll_eq]

@[simp] theorem State.raiseAll_pinState (s : State) (ms : List Mark) : (s.raiseAll ms).pinState = s.pinState := by
  rw [State.raiseAll_eq]

@[simp] theorem State.raiseAll_tickPending (s : State) (ms : List Mark) : (s.raiseAll ms).tickPending = s.tickPending := by
  rw [State.raiseAll_eq]

@[simp] theorem State.raiseAll_trace (s : State) (ms : List Mark) : (s.raiseAll ms).trace = s.trace := by
  rw [State.raiseAll_eq]

@[simp] theorem State.raiseAll_moves (s : State) (ms : List Mark) : (s.raiseAll ms).moves = s.moves := by
  rw [State.raiseAll_eq]

@[simp] theorem State.raiseAll_draws (s : State) (ms : List Mark) : (s.raiseAll ms).draws = s.draws := by
  rw [State.raiseAll_eq]

/-! ### Register writes by the sequencer -/

@[simp] theorem State.writeReg_sequencer_params (s : State) (r : Reg) (m d : Word) : (s.writeReg .sequencer r m d).params = s.params := by cases r <;> rfl

@[simp] theorem State.writeReg_sequencer_wsAct (s : State) (r : Reg) (m d : Word) : (s.writeReg .sequencer r m d).wsAct = s.wsAct := by cases r <;> rfl

@[simp] theorem State.writeReg_sequencer_hsoscRdy (s : State) (r : Reg) (m d : Word) : (s.writeReg .sequencer r m d).hsoscRdy = s.hsoscRdy := by cases r <;> rfl

@[simp] theorem State.writeReg_sequencer_sws (s : State) (r : Reg) (m d : Word) : (s.writeReg .sequencer r m d).sws = s.sws := by cases r <;> rfl

@[simp] theorem State.writeReg_sequencer_out (s : State) (r : Reg) (m d : Word) : (s.writeReg .sequencer r m d).out = s.out := by cases r <;> rfl

@[simp] theorem State.writeReg_sequencer_seqState (s : State) (r : Reg) (m d : Word) : (s.writeReg .sequencer r m d).seqState = s.seqState := by cases r <;> rfl

@[simp] theorem State.writeReg_sequencer_rdLatch (s : State) (r : Reg) (m d : Word) : (s.writeReg .sequencer r m d).rdLatch = s.rdLatch := by cases r <;> rfl

@[simp] theorem State.writeReg_sequencer_tickCount (s : State) (r : Reg) (m d : Word) : (s.writeReg .sequencer r m d).tickCount = s.tickCount := by cases r <;> rfl

@[simp] theorem State.writeReg_sequencer_pinState (s : State) (r : Reg) (m d : Word) : (s.writeReg .sequencer r m d).pinState = s.pinState := by cases r <;> rfl

@[simp] theorem State.writeReg_sequencer_tickPending (s : State) (r : Reg) (m d : Word) : (s.writeReg .sequencer r m d).tickPending = s.tickPending := by cases r <;> rfl

@[simp] theorem State.writeReg_sequencer_trace (s : State) (r : Reg) (m d : Word) : (s.writeReg .sequencer r m d).trace = s.trace := by cases r <;> rfl

@[simp] theorem State.writeReg_sequencer_faults (s : State) (r : Reg) (m d : Word) : (s.writeReg .sequencer r m d).faults = s.faults := by cases r <;> rfl

@[simp] theorem State.writeReg_sequencer_moves (s : State) (r : Reg) (m d : Word) : (s.writeReg .sequencer r m d).moves = s.moves := by cases r <;> rfl

@[simp] theorem State.writeReg_sequencer_draws (s : State) (r : Reg) (m d : Word) : (s.writeReg .sequencer r m d).draws = s.draws := by cases r <;> rfl

/-! ### Register writes by the toggler -/

@[simp] theorem State.writePinBsr_params (s : State) (m d : Word) : (s.writePinBsr m d).params = s.params := by
  unfold State.writePinBsr; split <;> rfl

@[simp] theorem State.writePinBsr_wsReq (s : State) (m d : Word) : (s.writePinBsr m d).wsReq = s.wsReq := by
  unfold State.writePinBsr; split <;> rfl

@[simp] theorem State.writePinBsr_wsAct (s : State) (m d : Word) : (s.writePinBsr m d).wsAct = s.wsAct := by
  unfold State.writePinBsr; split <;> rfl

@[simp] theorem State.writePinBsr_hsoscOn (s : State) (m d : Word) : (s.writePinBsr m d).hsoscOn = s.hsoscOn := by
  unfold State.writePinBsr; split <;> rfl

@[simp] theorem State.writePinBsr_hsoscRdy (s : State) (m d : Word) : (s.writePinBsr m d).hsoscRdy = s.hsoscRdy := by
  unfold State.writePinBsr; split <;> rfl

@[simp] theorem State.writePinBsr_sw (s : State) (m d : Word) : (s.writePinBsr m d).sw = s.sw := by
  unfold State.writePinBsr; split <;> rfl

@[simp] theorem State.writePinBsr_sws (s : State) (m d : Word) : (s.writePinBsr m d).sws = s.sws := by
  unfold State.writePinBsr; split <;> rfl

@[simp] theorem State.writePinBsr_hpre (s : State) (m d : Word) : (s.writePinBsr m d).hpre = s.hpre := by
  unfold State.writePinBsr; split <;> rfl

@[simp] theorem State.writePinBsr_ppre (s : State) (m d : Word) : (s.writePinBsr m d).ppre = s.ppre := by
  unfold State.writePinBsr; split <;> rfl

@[simp] theorem State.writePinBsr_en (s : State) (m d : Word) : (s.writePinBsr m d).en = s.en := by
  unfold State.writePinBsr; split <;> rfl

@[simp] theorem State.writePinBsr_period (s : State) (m d : Word) : (s.writePinBsr m d).period = s.period := by
  unfold State.writePinBsr; split <;> rfl

@[simp] theorem State.writePinBsr_hz (s : State) (m d : Word) : (s.writePinBsr m d).hz = s.hz := by
  unfold State.writePinBsr; split <;> rfl

@[simp] theorem State.writePinBsr_seqState (s : State) (m d : Word) : (s.writePinBsr m d).seqState = s.seqState := by
  unfold State.writePinBsr; split <;> rfl

@[simp] theorem State.writePinBsr_rdLatch (s : State) (m d : Word) : (s.writePinBsr m d).rdLatch = s.rdLatch := by
  unfold State.writePinBsr; split <;> rfl

@[simp] theorem State.writePinBsr_tickCount (s : State) (m d : Word) : (s.writePinBsr m d).tickCount = s.tickCount := by
  unfold State.writePinBsr; split <;> rfl

@[simp] theorem State.writePinBsr_pinState (s : State) (m d : Word) : (s.writePinBsr m d).pinState = s.pinState := by
  unfold State.writePinBsr; split <;> rfl

@[simp] theorem State.writePinBsr_tickPending (s : State) (m d : Word) : (s.writePinBsr m d).tickPending = s.tickPending := by
  unfold State.writePinBsr; split <;> rfl

@[simp] theorem State.writePinBsr_trace (s : State) (m d : Word) : (s.writePinBsr m d).trace = s.trace := by
  unfold State.writePinBsr; split <;> rfl

@[simp] theorem State.writePinBsr_moves (s : State) (m d : Word) : (s.writePinBsr m d).moves = s.moves := by
  unfold State.writePinBsr; split <;> rfl

@[simp] theorem State.writePinBsr_draws (s : State) (m d : Word) : (s.writePinBsr m d).draws = s.draws := by
  unfold State.writePinBsr; split <;> rfl

/-! ### Register writes by the toggler, any register -/

@[simp] theorem State.writeReg_toggler_params (s : State) (r : Reg) (m d : Word) : (s.writeReg .toggler r m d).params = s.params := by
  cases r <;> first | rfl | simp [State.writeReg]

@[simp] theorem State.writeReg_toggler_wsReq (s : State) (r : Reg) (m d : Word) : (s.writeReg .toggler r m d).wsReq = s.wsReq := by
  cases r <;> first | rfl | simp [State.writeReg]

@[simp] theorem State.writeReg_toggler_wsAct (s : State) (r : Reg) (m d : Word) : (s.writeReg .toggler r m d).wsAct = s.wsAct := by
  cases r <;> first | rfl | simp [State.writeReg]

@[simp] theorem State.writeReg_toggler_hsoscOn (s : State) (r : Reg) (m d : Word) : (s.writeReg .toggler r m d).hsoscOn = s.hsoscOn := by
  cases r <;> first | rfl | simp [State.writeReg]

@[simp] theorem State.writeReg_toggler_hsoscRdy (s : State) (r : Reg) (m d : Word) : (s.writeReg .toggler r m d).hsoscRdy = s.hsoscRdy := by
  cases r <;> first | rfl | simp [State.writeReg]

@[simp] theorem State.writeReg_toggler_sw (s : State) (r : Reg) (m d : Word) : (s.writeReg .toggler r m d).sw = s.sw := by
  cases r <;> first | rfl | simp [State.writeReg]

@[simp] theorem State.writeReg_toggler_sws (s : State) (r : Reg) (m d : Word) : (s.writeReg .toggler r m d).sws = s.sws := by
  cases r <;> first | rfl | simp [State.writeReg]

@[simp] theorem State.writeReg_toggler_hpre (s : State) (r : Reg) (m d : Word) : (s.writeReg .toggler r m d).hpre = s.hpre := by
  cases r <;> first | rfl | simp [State.writeReg]

@[simp] theorem State.writeReg_toggler_ppre (s : State) (r : Reg) (m d : Word) : (s.writeReg .toggler r m d).ppre = s.ppre := by
  cases r <;> first | rfl | simp [State.writeReg]

@[simp] theorem State.writeReg_toggler_en (s : State) (r : Reg) (m d : Word) : (s.writeReg .toggler r m d).en = s.en := by
  cases r <;> first | rfl | simp [State.writeReg]

@[simp] theorem State.writeReg_toggler_period (s : State) (r : Reg) (m d : Word) : (s.writeReg .toggler r m d).period = s.period := by
  cases r <;> first | rfl | simp [State.writeReg]

@[simp] theorem State.writeReg_toggler_hz (s : State) (r : Reg) (m d : Word) : (s.writeReg .toggler r m d).hz = s.hz := by
  cases r <;> first | rfl | simp [State.writeReg]

@[simp] theorem State.writeReg_toggler_seqState (s : State) (r : Reg) (m d : Word) : (s.writeReg .toggler r m d).seqState = s.seqState := by
  cases r <;> first | rfl | simp [State.writeReg]

@[simp] theorem State.writeReg_toggler_rdLatch (s : State) (r : Reg) (m d : Word) : (s.writeReg .toggler r m d).rdLatch = s.rdLatch := by
  cases r <;> first | rfl | simp [State.writeReg]

@[simp] theorem State.writeReg_toggler_tickCount (s : State) (r : Reg) (m d : Word) : (s.writeReg .toggler r m d).tickCount = s.tickCount := by
  cases r <;> first | rfl | simp [State.writeReg]

@[simp] theorem State.writeReg_toggler_pinState (s : State) (r : Reg) (m d : Word) : (s.writeReg .toggler r m d).pinState = s.pinState := by
  cases r <;> first | rfl | simp [State.writeReg]

@[simp] theorem State.writeReg_toggler_tickPending (s : State) (r : Reg) (m d : Word) : (s.writeReg .toggler r m d).tickPending = s.tickPending := by
  cases r <;> first | rfl | simp [State.writeReg]

@[simp] theorem State.writeReg_toggler_trace (s : State) (r : Reg) (m d : Word) : (s.writeReg .toggler r m d).trace = s.trace := by
  cases r <;> first | rfl | simp [State.writeReg]

@[simp] theorem State.writeReg_toggler_moves (s : State) (r : Reg) (m d : Word) : (s.writeReg .toggler r m d).moves = s.moves := by
  cases r <;> first | rfl | simp [State.writeReg]

@[simp] theorem State.writeReg_toggler_draws (s : State) (r : Reg) (m d : Word) : (s.writeReg .toggler r m d).draws = s.draws := by
  cases r <;> first | rfl | simp [State.writeReg]

/-! ### The write template -/

@[simp] theorem State.writeOp_params (s : State) (op : BitVec 5) (a : WriteAccess) : (s.writeOp op a).params = s.params := by
  simp [State.writeOp]

@[simp] theorem State.writeOp_wsAct (s : State) (op : BitVec 5) (a : WriteAccess) : (s.writeOp op a).wsAct = s.wsAct := by
  simp [State.writeOp]

@[simp] theorem State.writeOp_hsoscRdy (s : State) (op : BitVec 5) (a : WriteAccess) : (s.writeOp op a).hsoscRdy = s.hsoscRdy := by
  simp [State.writeOp]

@[simp] theorem State.writeOp_sws (s : State) (op : BitVec 5) (a : WriteAccess) : (s.writeOp op a).sws = s.sws := by
  simp [State.writeOp]

@[simp] theorem State.writeOp_out (s : State) (op : BitVec 5) (a : WriteAccess) : (s.writeOp op a).out = s.out := by
  simp [State.writeOp]

@[simp] theorem State.writeOp_rdLatch (s : State) (op : BitVec 5) (a : WriteAccess) : (s.writeOp op a).rdLatch = s.rdLatch := by
  simp [State.writeOp]

@[simp] theorem State.writeOp_tickCount (s : State) (op : BitVec 5) (a : WriteAccess) : (s.writeOp op a).tickCount = s.tickCount := by
  simp [State.writeOp]

@[simp] theorem State.writeOp_pinState (s : State) (op : BitVec 5) (a : WriteAccess) : (s.writeOp op a).pinState = s.pinState := by
  simp [State.writeOp]

@[simp] theorem State.writeOp_tickPending (s : State) (op : BitVec 5) (a : WriteAccess) : (s.writeOp op a).tickPending = s.tickPending := by
  simp [State.writeOp]

@[simp] theorem State.writeOp_faults (s : State) (op : BitVec 5) (a : WriteAccess) : (s.writeOp op a).faults = s.faults := by
  simp [State.writeOp]

@[simp] theorem State.writeOp_moves (s : State) (op : BitVec 5) (a : WriteAccess) : (s.writeOp op a).moves = s.moves := by
  simp [State.writeOp]

@[simp] theorem State.writeOp_draws (s : State) (op : BitVec 5) (a : WriteAccess) : (s.writeOp op a).draws = s.draws := by
  simp [State.writeOp]

@[simp] theorem State.writeOp_seqState (s : State) (op : BitVec 5) (a : WriteAccess) :
    (s.writeOp op a).seqState = idCode op + 1 := rfl

@[simp] theorem State.writeOp_trace (s : State) (op : BitVec 5) (a : WriteAccess) :
    (s.writeOp op a).trace = s.trace ++ [.write op a.reg.offset a.wmask a.data] := by
  simp [State.writeOp]

/-! ### The status-wait template -/

@[simp] theorem State.pollOp_params (s : State) (op : BitVec 5) (a : PollAccess) : (s.pollOp op a).params = s.params := rfl

@[simp] theorem State.pollOp_wsReq (s : State) (op : BitVec 5) (a : PollAccess) : (s.pollOp op a).wsReq = s.wsReq := rfl

@[simp] theorem State.pollOp_wsAct (s : State) (op : BitVec 5) (a : PollAccess) : (s.pollOp op a).wsAct = s.wsAct := rfl

@[simp] theorem State.pollOp_hsoscOn (s : State) (op : BitVec 5) (a : PollAccess) : (s.pollOp op a).hsoscOn = s.hsoscOn := rfl

@[simp] theorem State.pollOp_hsoscRdy (s : State) (op : BitVec 5) (a : PollAccess) : (s.pollOp op a).hsoscRdy = s.hsoscRdy := rfl

@[simp] theorem State.pollOp_sw (s : State) (op : BitVec 5) (a : PollAccess) : (s.pollOp op a).sw = s.sw := rfl

@[simp] theorem State.pollOp_sws (s : State) (op : BitVec 5) (a : PollAccess) : (s.pollOp op a).sws = s.sws := rfl

@[simp] theorem State.pollOp_hpre (s : State) (op : BitVec 5) (a : PollAccess) : (s.pollOp op a).hpre = s.hpre := rfl

@[simp] theorem State.pollOp_ppre (s : State) (op : BitVec 5) (a : PollAccess) : (s.pollOp op a).ppre = s.ppre := rfl

@[simp] theorem State.pollOp_en (s : State) (op : BitVec 5) (a : PollAccess) : (s.pollOp op a).en = s.en := rfl

@[simp] theorem State.pollOp_period (s : State) (op : BitVec 5) (a : PollAccess) : (s.pollOp op a).period = s.period := rfl

@[simp] theorem State.pollOp_hz (s : State) (op : BitVec 5) (a : PollAccess) : (s.pollOp op a).hz = s.hz := rfl

@[simp] theorem State.pollOp_out (s : State) (op : BitVec 5) (a : PollAccess) : (s.pollOp op a).out = s.out := rfl

@[simp] theorem State.pollOp_tickCount (s : State) (op : BitVec 5) (a : PollAccess) : (s.pollOp op a).tickCount = s.tickCount := rfl

@[simp] theorem State.pollOp_pinState (s : State) (op : BitVec 5) (a : PollAccess) : (s.pollOp op a).pinState = s.pinState := rfl

@[simp] theorem State.pollOp_tickPending (s : State) (op : BitVec 5) (a : PollAccess) : (s.pollOp op a).tickPending = s.tickPending := rfl

@[simp] theorem State.pollOp_faults (s : State) (op : BitVec 5) (a : PollAccess) : (s.pollOp op a).faults = s.faults := rfl

@[simp] theorem State.pollOp_moves (s : State) (op : BitVec 5) (a : PollAccess) : (s.pollOp op a).moves = s.moves := rfl

@[simp] theorem State.pollOp_draws (s : State) (op : BitVec 5) (a : PollAccess) : (s.pollOp op a).draws = s.draws := rfl

@[simp] theorem State.pollOp_seqState (s : State) (op : BitVec 5) (a : PollAccess) :
    (s.pollOp op a).seqState = if a.sees (s.readReg a.reg) then idCode op + 1 else idCode op := rfl

@[simp] theorem State.pollOp_rdLatch (s : State) (op : BitVec 5) (a : PollAccess) :
    (s.pollOp op a).rdLatch = some (s.readReg a.reg) := rfl

@[simp] theorem State.pollOp_trace (s : State) (op : BitVec 5) (a : PollAccess) :
    (s.pollOp op a).trace = s.trace ++ [.read op a.reg.offset (s.readReg a.reg)] := rfl

/-! ### The checks in front of MUX.SEL and MuxSwitch -/

@[simp] theorem State.checkReady_params (s : State) : (s.checkReady).params = s.params := by
  unfold State.checkReady; split <;> rfl

@[simp] theorem State.checkReady_wsReq (s : State) : (s.checkReady).wsReq = s.wsReq := by
  unfold State.checkReady; split <;> rfl

@[simp] theorem State.checkReady_wsAct (s : State) : (s.checkReady).wsAct = s.wsAct := by
  unfold State.checkReady; split <;> rfl

@[simp] theorem State.checkReady_hsoscOn (s : State) : (s.checkReady).hsoscOn = s.hsoscOn := by
  unfold State.checkReady; split <;> rfl

@[simp] theorem State.checkReady_hsoscRdy (s : State) : (s.checkReady).hsoscRdy = s.hsoscRdy := by
  unfold State.checkReady; split <;> rfl

@[simp] theorem State.checkReady_sw (s : State) : (s.checkReady).sw = s.sw := by
  unfold State.checkReady; split <;> rfl

@[simp] theorem State.checkReady_sws (s : State) : (s.checkReady).sws = s.sws := by
  unfold State.checkReady; split <;> rfl

@[simp] theorem State.checkReady_hpre (s : State) : (s.checkReady).hpre = s.hpre := by
  unfold State.checkReady; split <;> rfl

@[simp] theorem State.checkReady_ppre (s : State) : (s.checkReady).ppre = s.ppre := by
  unfold State.checkReady; split <;> rfl

@[simp] theorem State.checkReady_en (s : State) : (s.checkReady).en = s.en := by
  unfold State.checkReady; split <;> rfl

@[simp] theorem State.checkReady_period (s : State) : (s.checkReady).period = s.period := by
  unfold State.checkReady; split <;> rfl

@[simp] theorem State.checkReady_hz (s : State) : (s.checkReady).hz = s.hz := by
  unfold State.checkReady; split <;> rfl

@[simp] theorem State.checkReady_out (s : State) : (s.checkReady).out = s.out := by
  unfold State.checkReady; split <;> rfl

@[simp] theorem State.checkReady_seqState (s : State) : (s.checkReady).seqState = s.seqState := by
  unfold State.checkReady; split <;> rfl

@[simp] theorem State.checkReady_rdLatch (s : State) : (s.checkReady).rdLatch = s.rdLatch := by
  unfold State.checkReady; split <;> rfl

@[simp] theorem State.checkReady_tickCount (s : State) : (s.checkReady).tickCount = s.tickCount := by
  unfold State.checkReady; split <;> rfl

@[simp] theorem State.checkReady_pinState (s : State) : (s.checkReady).pinState = s.pinState := by
  unfold State.checkReady; split <;> rfl

@[simp] theorem State.checkReady_tickPending (s : State) : (s.checkReady).tickPending = s.tickPending := by
  unfold State.checkReady; split <;> rfl

@[simp] theorem State.checkReady_trace (s : State) : (s.checkReady).trace = s.trace := by
  unfold State.checkReady; split <;> rfl

@[simp] theorem State.checkReady_moves (s : State) : (s.checkReady).moves = s.moves := by
  unfold State.checkReady; split <;> rfl

@[simp] theorem State.checkReady_draws (s : State) : (s.checkReady).draws = s.draws := by
  unfold State.checkReady; split <;> rfl

theorem State.checkReady_of_ready (s : State) (h : s.hsoscRdy = 1#1) : s.checkReady = s := by
  simp [State.checkReady, h]

/-! ### The check in front of MuxSwitch -/

@[simp] theorem State.checkTiming_params (s : State) : (s.checkTiming).params = s.params := by
  unfold State.checkTiming; split <;> rfl

@[simp] theorem State.checkTiming_wsReq (s : State) : (s.checkTiming).wsReq = s.wsReq := by
  unfold State.checkTiming; split <;> rfl

@[simp] theorem State.checkTiming_wsAct (s : State) : (s.checkTiming).wsAct = s.wsAct := by
  unfold State.checkTiming; split <;> rfl

@[simp] theorem State.checkTiming_hsoscOn (s : State) : (s.checkTiming).hsoscOn = s.hsoscOn := by
  unfold State.checkTiming; split <;> rfl

@[simp] theorem State.checkTiming_hsoscRdy (s : State) : (s.checkTiming).hsoscRdy = s.hsoscRdy := by
  unfold State.checkTiming; split <;> rfl

@[simp] theorem State.checkTiming_sw (s : State) : (s.checkTiming).sw = s.sw := by
  unfold State.checkTiming; split <;> rfl

@[simp] theorem State.checkTiming_sws (s : State) : (s.checkTiming).sws = s.sws := by
  unfold State.checkTiming; split <;> rfl

@[simp] theorem State.checkTiming_hpre (s : State) : (s.checkTiming).hpre = s.hpre := by
  unfold State.checkTiming; split <;> rfl

@[simp] theorem State.checkTiming_ppre (s : State) : (s.checkTiming).ppre = s.ppre := by
  unfold State.checkTiming; split <;> rfl

@[simp] theorem State.checkTiming_en (s : State) : (s.checkTiming).en = s.en := by
  unfold State.checkTiming; split <;> rfl

@[simp] theorem State.checkTiming_period (s : State) : (s.checkTiming).period = s.period := by
  unfold State.checkTiming; split <;> rfl

@[simp] theorem State.checkTiming_hz (s : State) : (s.checkTiming).hz = s.hz := by
  unfold State.checkTiming; split <;> rfl

@[simp] theorem State.checkTiming_out (s : State) : (s.checkTiming).out = s.out := by
  unfold State.checkTiming; split <;> rfl

@[simp] theorem State.checkTiming_seqState (s : State) : (s.checkTiming).seqState = s.seqState := by
  unfold State.checkTiming; split <;> rfl

@[simp] theorem State.checkTiming_rdLatch (s : State) : (s.checkTiming).rdLatch = s.rdLatch := by
  unfold State.checkTiming; split <;> rfl

@[simp] theorem State.checkTiming_tickCount (s : State) : (s.checkTiming).tickCount = s.tickCount := by
  unfold State.checkTiming; split <;> rfl

@[simp] theorem State.checkTiming_pinState (s : State) : (s.checkTiming).pinState = s.pinState := by
  unfold State.checkTiming; split <;> rfl

@[simp] theorem State.checkTiming_tickPending (s : State) : (s.checkTiming).tickPending = s.tickPending := by
  unfold State.checkTiming; split <;> rfl

@[simp] theorem State.checkTiming_trace (s : State) : (s.checkTiming).trace = s.trace := by
  unfold State.checkTiming; split <;> rfl

@[simp] theorem State.checkTiming_moves (s : State) : (s.checkTiming).moves = s.moves := by
  unfold State.checkTiming; split <;> rfl

@[simp] theorem State.checkTiming_draws (s : State) : (s.checkTiming).draws = s.draws := by
  unfold State.checkTiming; split <;> rfl

theorem State.checkTiming_of_ok (s : State) (h : s.timingOkFor s.sw = true) : s.checkTiming = s := by
  simp [State.checkTiming, h]

/-! ### FlashLatch -/

@[simp] theorem State.flashLatch_params (s : State) : (s.flashLatch).params = s.params := rfl

@[simp] theorem State.flashLatch_wsReq (s : State) : (s.flashLatch).wsReq = s.wsReq := rfl

@[simp] theorem State.flashLatch_hsoscOn (s : State) : (s.flashLatch).hsoscOn = s.hsoscOn := rfl

@[simp] theorem State.flashLatch_hsoscRdy (s : State) : (s.flashLatch).hsoscRdy = s.hsoscRdy := rfl

@[simp] theorem State.flashLatch_sw (s : State) : (s.flashLatch).sw = s.sw := rfl

@[simp] theorem State.flashLatch_sws (s : State) : (s.flashLatch).sws = s.sws := rfl

@[simp] theorem State.flashLatch_hpre (s : State) : (s.flashLatch).hpre = s.hpre := rfl

@[simp] theorem State.flashLatch_ppre (s : State) : (s.flashLatch).ppre = s.ppre := rfl

@[simp] theorem State.flashLatch_en (s : State) : (s.flashLatch).en = s.en := rfl

@[simp] theorem State.flashLatch_period (s : State) : (s.flashLatch).period = s.period := rfl

@[simp] theorem State.flashLatch_hz (s : State) : (s.flashLatch).hz = s.hz := rfl

@[simp] theorem State.flashLatch_out (s : State) : (s.flashLatch).out = s.out := rfl

@[simp] theorem State.flashLatch_seqState (s : State) : (s.flashLatch).seqState = s.seqState := rfl

@[simp] theorem State.flashLatch_rdLatch (s : State) : (s.flashLatch).rdLatch = s.rdLatch := rfl

@[simp] theorem State.flashLatch_tickCount (s : State) : (s.flashLatch).tickCount = s.tickCount := rfl

@[simp] theorem State.flashLatch_pinState (s : State) : (s.flashLatch).pinState = s.pinState := rfl

@[simp] theorem State.flashLatch_tickPending (s : State) : (s.flashLatch).tickPending = s.tickPending := rfl

@[simp] theorem State.flashLatch_faults (s : State) : (s.flashLatch).faults = s.faults := rfl

@[simp] theorem State.flashLatch_moves (s : State) : (s.flashLatch).moves = s.moves := rfl

@[simp] theorem State.flashLatch_draws (s : State) : (s.flashLatch).draws = s.draws := rfl

@[simp] theorem State.flashLatch_wsAct (s : State) : s.flashLatch.wsAct = s.wsReq := rfl

@[simp] theorem State.flashLatch_trace (s : State) :
    s.flashLatch.trace = s.trace ++ [.env .flashLatch] := rfl

/-! ### OscReady -/

@[simp] theorem State.oscReady_params (s : State) : (s.oscReady).params = s.params := rfl

@[simp] theorem State.oscReady_wsReq (s : State) : (s.oscReady).wsReq = s.wsReq := rfl

@[simp] theorem State.oscReady_wsAct (s : State) : (s.oscReady).wsAct = s.wsAct := rfl

@[simp] theorem State.oscReady_hsoscOn (s : State) : (s.oscReady).hsoscOn = s.hsoscOn := rfl

@[simp] theorem State.oscReady_sw (s : State) : (s.oscReady).sw = s.sw := rfl

@[simp] theorem State.oscReady_sws (s : State) : (s.oscReady).sws = s.sws := rfl

@[simp] theorem State.oscReady_hpre (s : State) : (s.oscReady).hpre = s.hpre := rfl

@[simp] theorem State.oscReady_ppre (s : State) : (s.oscReady).ppre = s.ppre := rfl

@[simp] theorem State.oscReady_en (s : State) : (s.oscReady).en = s.en := rfl

@[simp] theorem State.oscReady_period (s : State) : (s.oscReady).period = s.period := rfl

@[simp] theorem State.oscReady_hz (s : State) : (s.oscReady).hz = s.hz := rfl

@[simp] theorem State.oscReady_out (s : State) : (s.oscReady).out = s.out := rfl

@[simp] theorem State.oscReady_seqState (s : State) : (s.oscReady).seqState = s.seqState := rfl

@[simp] theorem State.oscReady_rdLatch (s : State) : (s.oscReady).rdLatch = s.rdLatch := rfl

@[simp] theorem State.oscReady_tickCount (s : State) : (s.oscReady).tickCount = s.tickCount := rfl

@[simp] theorem State.oscReady_pinState (s : State) : (s.oscReady).pinState = s.pinState := rfl

@[simp] theorem State.oscReady_tickPending (s : State) : (s.oscReady).tickPending = s.tickPending := rfl

@[simp] theorem State.oscReady_faults (s : State) : (s.oscReady).faults = s.faults := rfl

@[simp] theorem State.oscReady_moves (s : State) : (s.oscReady).moves = s.moves := rfl

@[simp] theorem State.oscReady_draws (s : State) : (s.oscReady).draws = s.draws := rfl

@[simp] theorem State.oscReady_hsoscRdy (s : State) : s.oscReady.hsoscRdy = 1#1 := rfl

@[simp] theorem State.oscReady_trace (s : State) :
    s.oscReady.trace = s.trace ++ [.env .oscReady] := rfl

/-! ### MuxSwitch -/

@[simp] theorem State.muxSwitch_params (s : State) : (s.muxSwitch).params = s.params := by
  simp [State.muxSwitch]

@[simp] theorem State.muxSwitch_wsReq (s : State) : (s.muxSwitch).wsReq = s.wsReq := by
  simp [State.muxSwitch]

@[simp] theorem State.muxSwitch_wsAct (s : State) : (s.muxSwitch).wsAct = s.wsAct := by
  simp [State.muxSwitch]

@[simp] theorem State.muxSwitch_hsoscOn (s : State) : (s.muxSwitch).hsoscOn = s.hsoscOn := by
  simp [State.muxSwitch]

@[simp] theorem State.muxSwitch_hsoscRdy (s : State) : (s.muxSwitch).hsoscRdy = s.hsoscRdy := by
  simp [State.muxSwitch]

@[simp] theorem State.muxSwitch_sw (s : State) : (s.muxSwitch).sw = s.sw := by
  simp [State.muxSwitch]

@[simp] theorem State.muxSwitch_hpre (s : State) : (s.muxSwitch).hpre = s.hpre := by
  simp [State.muxSwitch]

@[simp] theorem State.muxSwitch_ppre (s : State) : (s.muxSwitch).ppre = s.ppre := by
  simp [State.muxSwitch]

@[simp] theorem State.muxSwitch_en (s : State) : (s.muxSwitch).en = s.en := by
  simp [State.muxSwitch]

@[simp] theorem State.muxSwitch_period (s : State) : (s.muxSwitch).period = s.period := by
  simp [State.muxSwitch]

@[simp] theorem State.muxSwitch_hz (s : State) : (s.muxSwitch).hz = s.hz := by
  simp [State.muxSwitch]

@[simp] theorem State.muxSwitch_out (s : State) : (s.muxSwitch).out = s.out := by
  simp [State.muxSwitch]

@[simp] theorem State.muxSwitch_seqState (s : State) : (s.muxSwitch).seqState = s.seqState := by
  simp [State.muxSwitch]

@[simp] theorem State.muxSwitch_rdLatch (s : State) : (s.muxSwitch).rdLatch = s.rdLatch := by
  simp [State.muxSwitch]

@[simp] theorem State.muxSwitch_tickCount (s : State) : (s.muxSwitch).tickCount = s.tickCount := by
  simp [State.muxSwitch]

@[simp] theorem State.muxSwitch_pinState (s : State) : (s.muxSwitch).pinState = s.pinState := by
  simp [State.muxSwitch]

@[simp] theorem State.muxSwitch_tickPending (s : State) : (s.muxSwitch).tickPending = s.tickPending := by
  simp [State.muxSwitch]

@[simp] theorem State.muxSwitch_moves (s : State) : (s.muxSwitch).moves = s.moves := by
  simp [State.muxSwitch]

@[simp] theorem State.muxSwitch_draws (s : State) : (s.muxSwitch).draws = s.draws := by
  simp [State.muxSwitch]

@[simp] theorem State.muxSwitch_sws (s : State) : s.muxSwitch.sws = s.sw := rfl

@[simp] theorem State.muxSwitch_faults (s : State) : s.muxSwitch.faults = s.checkTiming.faults := rfl

@[simp] theorem State.muxSwitch_trace (s : State) :
    s.muxSwitch.trace = s.trace ++ [.env .muxSwitch] := by
  simp [State.muxSwitch]

/-! ### TickFire -/

@[simp] theorem State.tickFire_params (s : State) : (s.tickFire).params = s.params := by
  unfold State.tickFire; split <;> rfl

@[simp] theorem State.tickFire_wsReq (s : State) : (s.tickFire).wsReq = s.wsReq := by
  unfold State.tickFire; split <;> rfl

@[simp] theorem State.tickFire_wsAct (s : State) : (s.tickFire).wsAct = s.wsAct := by
  unfold State.tickFire; split <;> rfl

@[simp] theorem State.tickFire_hsoscOn (s : State) : (s.tickFire).hsoscOn = s.hsoscOn := by
  unfold State.tickFire; split <;> rfl

@[simp] theorem State.tickFire_hsoscRdy (s : State) : (s.tickFire).hsoscRdy = s.hsoscRdy := by
  unfold State.tickFire; split <;> rfl

@[simp] theorem State.tickFire_sw (s : State) : (s.tickFire).sw = s.sw := by
  unfold State.tickFire; split <;> rfl

@[simp] theorem State.tickFire_sws (s : State) : (s.tickFire).sws = s.sws := by
  unfold State.tickFire; split <;> rfl

@[simp] theorem State.tickFire_hpre (s : State) : (s.tickFire).hpre = s.hpre := by
  unfold State.tickFire; split <;> rfl

@[simp] theorem State.tickFire_ppre (s : State) : (s.tickFire).ppre = s.ppre := by
  unfold State.tickFire; split <;> rfl

@[simp] theorem State.tickFire_en (s : State) : (s.tickFire).en = s.en := by
  unfold State.tickFire; split <;> rfl

@[simp] theorem State.tickFire_period (s : State) : (s.tickFire).period = s.period := by
  unfold State.tickFire; split <;> rfl

@[simp] theorem State.tickFire_hz (s : State) : (s.tickFire).hz = s.hz := by
  unfold State.tickFire; split <;> rfl

@[simp] theorem State.tickFire_out (s : State) : (s.tickFire).out = s.out := by
  unfold State.tickFire; split <;> rfl

@[simp] theorem State.tickFire_seqState (s : State) : (s.tickFire).seqState = s.seqState := by
  unfold State.tickFire; split <;> rfl

@[simp] theorem State.tickFire_rdLatch (s : State) : (s.tickFire).rdLatch = s.rdLatch := by
  unfold State.tickFire; split <;> rfl

@[simp] theorem State.tickFire_tickCount (s : State) : (s.tickFire).tickCount = s.tickCount := by
  unfold State.tickFire; split <;> rfl

@[simp] theorem State.tickFire_pinState (s : State) : (s.tickFire).pinState = s.pinState := by
  unfold State.tickFire; split <;> rfl

@[simp] theorem State.tickFire_moves (s : State) : (s.tickFire).moves = s.moves := by
  unfold State.tickFire; split <;> rfl

@[simp] theorem State.tickFire_draws (s : State) : (s.tickFire).draws = s.draws := by
  unfold State.tickFire; split <;> rfl

@[simp] theorem State.tickFire_tickPending (s : State) : s.tickFire.tickPending = 1#1 := by
  unfold State.tickFire; split <;> simp [*]

@[simp] theorem State.tickFire_trace (s : State) : s.tickFire.trace = s.trace ++ [.fire] := by
  unfold State.tickFire; split <;> rfl

/-! ### A host read -/

@[simp] theorem State.hostRead_params (s : State) (off : BitVec 8) : (s.hostRead off).params = s.params := by
  unfold State.hostRead; split <;> rfl

@[simp] theorem State.hostRead_wsReq (s : State) (off : BitVec 8) : (s.hostRead off).wsReq = s.wsReq := by
  unfold State.hostRead; split <;> rfl

@[simp] theorem State.hostRead_wsAct (s : State) (off : BitVec 8) : (s.hostRead off).wsAct = s.wsAct := by
  unfold State.hostRead; split <;> rfl

@[simp] theorem State.hostRead_hsoscOn (s : State) (off : BitVec 8) : (s.hostRead off).hsoscOn = s.hsoscOn := by
  unfold State.hostRead; split <;> rfl

@[simp] theorem State.hostRead_hsoscRdy (s : State) (off : BitVec 8) : (s.hostRead off).hsoscRdy = s.hsoscRdy := by
  unfold State.hostRead; split <;> rfl

@[simp] theorem State.hostRead_sw (s : State) (off : BitVec 8) : (s.hostRead off).sw = s.sw := by
  unfold State.hostRead; split <;> rfl

@[simp] theorem State.hostRead_sws (s : State) (off : BitVec 8) : (s.hostRead off).sws = s.sws := by
  unfold State.hostRead; split <;> rfl

@[simp] theorem State.hostRead_hpre (s : State) (off : BitVec 8) : (s.hostRead off).hpre = s.hpre := by
  unfold State.hostRead; split <;> rfl

@[simp] theorem State.hostRead_ppre (s : State) (off : BitVec 8) : (s.hostRead off).ppre = s.ppre := by
  unfold State.hostRead; split <;> rfl

@[simp] theorem State.hostRead_en (s : State) (off : BitVec 8) : (s.hostRead off).en = s.en := by
  unfold State.hostRead; split <;> rfl

@[simp] theorem State.hostRead_period (s : State) (off : BitVec 8) : (s.hostRead off).period = s.period := by
  unfold State.hostRead; split <;> rfl

@[simp] theorem State.hostRead_hz (s : State) (off : BitVec 8) : (s.hostRead off).hz = s.hz := by
  unfold State.hostRead; split <;> rfl

@[simp] theorem State.hostRead_out (s : State) (off : BitVec 8) : (s.hostRead off).out = s.out := by
  unfold State.hostRead; split <;> rfl

@[simp] theorem State.hostRead_seqState (s : State) (off : BitVec 8) : (s.hostRead off).seqState = s.seqState := by
  unfold State.hostRead; split <;> rfl

@[simp] theorem State.hostRead_rdLatch (s : State) (off : BitVec 8) : (s.hostRead off).rdLatch = s.rdLatch := by
  unfold State.hostRead; split <;> rfl

@[simp] theorem State.hostRead_tickCount (s : State) (off : BitVec 8) : (s.hostRead off).tickCount = s.tickCount := by
  unfold State.hostRead; split <;> rfl

@[simp] theorem State.hostRead_pinState (s : State) (off : BitVec 8) : (s.hostRead off).pinState = s.pinState := by
  unfold State.hostRead; split <;> rfl

@[simp] theorem State.hostRead_tickPending (s : State) (off : BitVec 8) : (s.hostRead off).tickPending = s.tickPending := by
  unfold State.hostRead; split <;> rfl

@[simp] theorem State.hostRead_moves (s : State) (off : BitVec 8) : (s.hostRead off).moves = s.moves := by
  unfold State.hostRead; split <;> rfl

@[simp] theorem State.hostRead_draws (s : State) (off : BitVec 8) : (s.hostRead off).draws = s.draws := by
  unfold State.hostRead; split <;> rfl

/-! ### Taking a move from the schedule -/

@[simp] theorem State.popMove_params (s : State) : (s.popMove).params = s.params := by
  unfold State.popMove; split <;> rfl

@[simp] theorem State.popMove_wsReq (s : State) : (s.popMove).wsReq = s.wsReq := by
  unfold State.popMove; split <;> rfl

@[simp] theorem State.popMove_wsAct (s : State) : (s.popMove).wsAct = s.wsAct := by
  unfold State.popMove; split <;> rfl

@[simp] theorem State.popMove_hsoscOn (s : State) : (s.popMove).hsoscOn = s.hsoscOn := by
  unfold State.popMove; split <;> rfl

@[simp] theorem State.popMove_hsoscRdy (s : State) : (s.popMove).hsoscRdy = s.hsoscRdy := by
  unfold State.popMove; split <;> rfl

@[simp] theorem State.popMove_sw (s : State) : (s.popMove).sw = s.sw := by
  unfold State.popMove; split <;> rfl

@[simp] theorem State.popMove_sws (s : State) : (s.popMove).sws = s.sws := by
  unfold State.popMove; split <;> rfl

@[simp] theorem State.popMove_hpre (s : State) : (s.popMove).hpre = s.hpre := by
  unfold State.popMove; split <;> rfl

@[simp] theorem State.popMove_ppre (s : State) : (s.popMove).ppre = s.ppre := by
  unfold State.popMove; split <;> rfl

@[simp] theorem State.popMove_en (s : State) : (s.popMove).en = s.en := by
  unfold State.popMove; split <;> rfl

@[simp] theorem State.popMove_period (s : State) : (s.popMove).period = s.period := by
  unfold State.popMove; split <;> rfl

@[simp] theorem State.popMove_hz (s : State) : (s.popMove).hz = s.hz := by
  unfold State.popMove; split <;> rfl

@[simp] theorem State.popMove_out (s : State) : (s.popMove).out = s.out := by
  unfold State.popMove; split <;> rfl

@[simp] theorem State.popMove_seqState (s : State) : (s.popMove).seqState = s.seqState := by
  unfold State.popMove; split <;> rfl

@[simp] theorem State.popMove_rdLatch (s : State) : (s.popMove).rdLatch = s.rdLatch := by
  unfold State.popMove; split <;> rfl

@[simp] theorem State.popMove_tickCount (s : State) : (s.popMove).tickCount = s.tickCount := by
  unfold State.popMove; split <;> rfl

@[simp] theorem State.popMove_pinState (s : State) : (s.popMove).pinState = s.pinState := by
  unfold State.popMove; split <;> rfl

@[simp] theorem State.popMove_tickPending (s : State) : (s.popMove).tickPending = s.tickPending := by
  unfold State.popMove; split <;> rfl

@[simp] theorem State.popMove_trace (s : State) : (s.popMove).trace = s.trace := by
  unfold State.popMove; split <;> rfl

@[simp] theorem State.popMove_faults (s : State) : (s.popMove).faults = s.faults := by
  unfold State.popMove; split <;> rfl

end Sys2Proof.Machine
end

