-- ==== Sys2Proof/Laws/Ops.lean ====
section
/-! SUPPORT. One lemma per shared operation: the masked merge, the address map, what each write
descriptor stores, when each poll sees its awaited value, and the toggle. -/

namespace Sys2Proof.Machine

/-- A merged bit comes from the new value where the mask has it, else from the old (R45). -/
theorem getLsbD_merge {n : Nat} (old mask new : BitVec n) (i : Nat) :
    (merge old mask new).getLsbD i = if mask.getLsbD i then new.getLsbD i else old.getLsbD i := by
  by_cases hi : i < n
  · simp only [merge, BitVec.getLsbD_or, BitVec.getLsbD_and, BitVec.getLsbD_not, hi, decide_true,
      Bool.true_and]
    cases mask.getLsbD i <;> simp
  · simp [BitVec.getLsbD_of_ge _ _ (Nat.le_of_not_lt hi)]

theorem merge_allOnes {n : Nat} (old new : BitVec n) : merge old (BitVec.allOnes n) new = new := by
  simp [merge]

/-- The map is one-to-one (R40). -/
@[simp] theorem Reg.ofOffset_offset (r : Reg) : Reg.ofOffset r.offset = some r := by
  cases r <;> decide

/-- An offset of the map is a multiple of 4 below 0x20, and every such offset is one (R40, R42, R49). -/
theorem Reg.ofOffset_eq_none_iff : ∀ off : BitVec 8,
    Reg.ofOffset off = none ↔ off.toNat % 4 ≠ 0 ∨ 0x20 ≤ off.toNat := by
  decide +revert

theorem Reg.offset_of_ofOffset {off : BitVec 8} {r : Reg} (h : Reg.ofOffset off = some r) :
    r.offset = off := by
  have := List.find?_some h
  simpa using this

/-! ### The words of each descriptor, as the table of R60 writes them -/

theorem RegField.word_of_lo_zero (f : RegField) (h : f.lo = 0) (n : Nat) :
    f.word n = BitVec.ofNat 32 n := by
  simp [RegField.word, h]

theorem fwsSetAccess_eq (p : Config.Params) :
    fwsSetAccess p = ⟨.flashTiming, 0x00000007#32, BitVec.ofNat 32 p.flashWaitCycles⟩ := by
  rw [fwsSetAccess, RegField.word_of_lo_zero _ rfl]; rfl

theorem fwsWaitAccess_eq (p : Config.Params) :
    fwsWaitAccess p = ⟨.flashTiming, 0x00000070#32, BitVec.ofNat 32 p.flashWaitCycles <<< 4⟩ := rfl

theorem oscOnAccess_eq : oscOnAccess = ⟨.oscCtrl, 0x00000001#32, 0x00000001#32⟩ := rfl

theorem oscWaitAccess_eq : oscWaitAccess = ⟨.oscCtrl, 0x00000002#32, 0x00000002#32⟩ := rfl

theorem muxSelAccess_eq : muxSelAccess = ⟨.clkCfg, 0x000007F3#32, 0x00000001#32⟩ := rfl

theorem muxWaitAccess_eq : muxWaitAccess = ⟨.clkCfg, 0x0000000C#32, 0x00000004#32⟩ := rfl

theorem tickLoadAccess_eq (p : Config.Params) :
    tickLoadAccess p = ⟨.tickPeriod, 0x00FFFFFF#32, BitVec.ofNat 32 p.tickPeriodCycles⟩ := by
  rw [tickLoadAccess, RegField.word_of_lo_zero _ rfl]; rfl

theorem tickEnAccess_eq : tickEnAccess = ⟨.tickCtrl, 0x00000001#32, 0x00000001#32⟩ := rfl

theorem freqRecAccess_eq (p : Config.Params) :
    freqRecAccess p = ⟨.coreFreq, 0xFFFFFFFF#32, BitVec.ofNat 32 p.targetHz⟩ := by
  rw [freqRecAccess, RegField.word_of_lo_zero _ rfl]; rfl

/-! ### What each write descriptor stores -/

theorem writeReg_fwsSet (s : State) (p : Config.Params) :
    s.writeReg .sequencer (fwsSetAccess p).reg (fwsSetAccess p).wmask (fwsSetAccess p).data =
      { s with wsReq := BitVec.ofNat 3 p.flashWaitCycles } := by
  have hm : (RegField.wsReq.mask).extractLsb' 0 3 = BitVec.allOnes 3 := by decide
  simp only [fwsSetAccess, State.writeReg, hm, merge_allOnes]
  congr 1
  apply BitVec.eq_of_toNat_eq
  simp [RegField.word, RegField.lo]

theorem writeReg_oscOn (s : State) :
    s.writeReg .sequencer oscOnAccess.reg oscOnAccess.wmask oscOnAccess.data =
      { s with hsoscOn := 1#1 } := by
  have hm : (RegField.hsoscOn.mask).extractLsb' 0 1 = BitVec.allOnes 1 := by decide
  simp only [oscOnAccess, State.writeReg, hm, merge_allOnes]
  congr 1

theorem writeReg_muxSel (s : State) :
    s.writeReg .sequencer muxSelAccess.reg muxSelAccess.wmask muxSelAccess.data =
      { s with sw := 1#2, hpre := 0#4, ppre := 0#3 } := by
  have h1 : (RegField.sw.mask ||| RegField.hpre.mask ||| RegField.ppre.mask).extractLsb' 0 2 =
    BitVec.allOnes 2 := by decide
  have h2 : (RegField.sw.mask ||| RegField.hpre.mask ||| RegField.ppre.mask).extractLsb' 4 4 =
    BitVec.allOnes 4 := by decide
  have h3 : (RegField.sw.mask ||| RegField.hpre.mask ||| RegField.ppre.mask).extractLsb' 8 3 =
    BitVec.allOnes 3 := by decide
  simp only [muxSelAccess, State.writeReg, h1, h2, h3, merge_allOnes]
  congr 1

theorem writeReg_tickLoad (s : State) (p : Config.Params) :
    s.writeReg .sequencer (tickLoadAccess p).reg (tickLoadAccess p).wmask (tickLoadAccess p).data =
      { s with period := BitVec.ofNat 24 p.tickPeriodCycles } := by
  have hm : (RegField.period.mask).extractLsb' 0 24 = BitVec.allOnes 24 := by decide
  simp only [tickLoadAccess, State.writeReg, hm, merge_allOnes]
  congr 1
  apply BitVec.eq_of_toNat_eq
  simp [RegField.word, RegField.lo]

theorem writeReg_tickEn (s : State) :
    s.writeReg .sequencer tickEnAccess.reg tickEnAccess.wmask tickEnAccess.data =
      { s with en := 1#1 } := by
  have hm : (RegField.en.mask).extractLsb' 0 1 = BitVec.allOnes 1 := by decide
  simp only [tickEnAccess, State.writeReg, hm, merge_allOnes]
  congr 1

theorem writeReg_freqRec (s : State) (p : Config.Params) :
    s.writeReg .sequencer (freqRecAccess p).reg (freqRecAccess p).wmask (freqRecAccess p).data =
      { s with hz := BitVec.ofNat 32 p.targetHz } := by
  have hm : RegField.hz.mask = BitVec.allOnes 32 := by decide
  simp only [freqRecAccess, State.writeReg, hm, merge_allOnes]
  congr 1
  simp [RegField.word, RegField.lo]

/-! ### When each poll sees its awaited value -/

theorem sees_oscWait (s : State) :
    oscWaitAccess.sees (s.readReg oscWaitAccess.reg) = true ↔ s.hsoscRdy = 1#1 := by
  have key : ∀ rdy on : BitVec 1,
      (((0#30 ++ rdy ++ on : Word) &&& RegField.hsoscRdy.mask) == RegField.hsoscRdy.word 1) = true ↔
        rdy = 1#1 := by decide
  exact key s.hsoscRdy s.hsoscOn

theorem sees_muxWait (s : State) :
    muxWaitAccess.sees (s.readReg muxWaitAccess.reg) = true ↔ s.sws = 1#2 := by
  have hm : RegField.sws.mask = 0xC#32 := by decide
  have hw : RegField.sws.word 1 = 4#32 := by decide
  have low : ∀ (a : BitVec 28) (b : BitVec 2) (c : BitVec 2),
      (a ++ b ++ c : Word) &&& 0xC#32 = 0#28 ++ b ++ 0#2 := by
    intro a b c
    apply BitVec.eq_of_getLsbD_eq
    intro i hi
    have : i < 32 := hi
    simp only [BitVec.getLsbD_and, BitVec.getLsbD_append]
    interval_cases i <;> simp
  have fits : ∀ b : BitVec 2, ((0#28 ++ b ++ 0#2 : Word) == 4#32) = true ↔ b = 1#2 := by decide
  have assoc : s.readReg .clkCfg = ((0#21 ++ s.ppre ++ s.hpre : BitVec 28) ++ s.sws ++ s.sw : Word) := rfl
  simp only [PollAccess.sees, muxWaitAccess, assoc, hm, hw, low, fits]

theorem sees_fwsWait (s : State) (p : Config.Params) (hp : p.flashWaitCycles ≤ 7) :
    (fwsWaitAccess p).sees (s.readReg (fwsWaitAccess p).reg) = true ↔
      s.wsAct.toNat = p.flashWaitCycles := by
  have key : ∀ act req : BitVec 3, ∀ n, n ≤ 7 →
      ((((0#25 ++ act ++ 0#1 ++ req : Word) &&& RegField.wsAct.mask) == RegField.wsAct.word n) = true ↔
        act.toNat = n) := by decide
  exact key s.wsAct s.wsReq _ hp

/-! ### The toggle -/

/-- The set/clear write drives the output latch to the new record (R46, R95). -/
theorem State.toggle_eq (s : State) :
    s.toggle = { s with pinState := ~~~s.pinState, out := ~~~s.pinState } := by
  have key : ∀ b : BitVec 1, b = 0#1 ∨ b = 1#1 := by decide
  rcases key s.pinState with h | h <;> simp only [State.toggle, h] <;> rfl

/-! ### What taking the tick leaves alone -/

@[simp] theorem State.takeTick_params (s : State) : s.takeTick.params = s.params := by
  unfold State.takeTick; split <;> simp [State.toggle_eq, State.countTick]

@[simp] theorem State.takeTick_wsReq (s : State) : s.takeTick.wsReq = s.wsReq := by
  unfold State.takeTick; split <;> simp [State.toggle_eq, State.countTick]

@[simp] theorem State.takeTick_wsAct (s : State) : s.takeTick.wsAct = s.wsAct := by
  unfold State.takeTick; split <;> simp [State.toggle_eq, State.countTick]

@[simp] theorem State.takeTick_hsoscOn (s : State) : s.takeTick.hsoscOn = s.hsoscOn := by
  unfold State.takeTick; split <;> simp [State.toggle_eq, State.countTick]

@[simp] theorem State.takeTick_hsoscRdy (s : State) : s.takeTick.hsoscRdy = s.hsoscRdy := by
  unfold State.takeTick; split <;> simp [State.toggle_eq, State.countTick]

@[simp] theorem State.takeTick_sw (s : State) : s.takeTick.sw = s.sw := by
  unfold State.takeTick; split <;> simp [State.toggle_eq, State.countTick]

@[simp] theorem State.takeTick_sws (s : State) : s.takeTick.sws = s.sws := by
  unfold State.takeTick; split <;> simp [State.toggle_eq, State.countTick]

@[simp] theorem State.takeTick_hpre (s : State) : s.takeTick.hpre = s.hpre := by
  unfold State.takeTick; split <;> simp [State.toggle_eq, State.countTick]

@[simp] theorem State.takeTick_ppre (s : State) : s.takeTick.ppre = s.ppre := by
  unfold State.takeTick; split <;> simp [State.toggle_eq, State.countTick]

@[simp] theorem State.takeTick_en (s : State) : s.takeTick.en = s.en := by
  unfold State.takeTick; split <;> simp [State.toggle_eq, State.countTick]

@[simp] theorem State.takeTick_period (s : State) : s.takeTick.period = s.period := by
  unfold State.takeTick; split <;> simp [State.toggle_eq, State.countTick]

@[simp] theorem State.takeTick_hz (s : State) : s.takeTick.hz = s.hz := by
  unfold State.takeTick; split <;> simp [State.toggle_eq, State.countTick]

@[simp] theorem State.takeTick_seqState (s : State) : s.takeTick.seqState = s.seqState := by
  unfold State.takeTick; split <;> simp [State.toggle_eq, State.countTick]

@[simp] theorem State.takeTick_rdLatch (s : State) : s.takeTick.rdLatch = s.rdLatch := by
  unfold State.takeTick; split <;> simp [State.toggle_eq, State.countTick]

@[simp] theorem State.takeTick_faults (s : State) : s.takeTick.faults = s.faults := by
  unfold State.takeTick; split <;> simp [State.toggle_eq, State.countTick]

@[simp] theorem State.takeTick_moves (s : State) : s.takeTick.moves = s.moves := by
  unfold State.takeTick; split <;> simp [State.toggle_eq, State.countTick]

@[simp] theorem State.takeTick_draws (s : State) : s.takeTick.draws = s.draws := by
  unfold State.takeTick; split <;> simp [State.toggle_eq, State.countTick]

end Sys2Proof.Machine
end

