-- ==== Sys2Proof/Laws/Moves.lean ====
section
/-! SUPPORT. What one move can do, said once: when a move answers a next state, and which state. -/

namespace Sys2Proof.Machine

/-- Every sequencer code below 10 decodes to an operation with that code, and no other does
(spec/30_encoding.md R58, R62). -/
theorem decode_sequencer : ∀ c : BitVec 4,
    (∃ i ∈ Instr.configure ++ [.idle], decode (mkId 0#1 c) = .ok i ∧ encode i = mkId 0#1 c ∧ c.toNat ≤ 9) ∨
    (decode (mkId 0#1 c) = .error (.illegalSequencerCode c) ∧ 10 ≤ c.toNat) := by
  decide

/-- The sequencer runs the operation its code decodes to (R58). -/
theorem sequencerMove_of_decode {s : State} {c : BitVec 4} {i : Instr} (hc : s.seqState = c)
    (hd : decode (mkId 0#1 c) = .ok i) : sequencerMove s = exec i s := by
  simp only [sequencerMove, State.nextId, hc, hd]

/-- A code that names no operation gives the sequencer no step, only a mark (R62). -/
theorem sequencerMove_of_illegal {s : State} (h : 10 ≤ s.seqState.toNat) :
    sequencerMove s = .next (s.raise (.illegalSeqState s.seqState)) := by
  rcases decode_sequencer s.seqState with ⟨_, _, _, _, hle⟩ | ⟨hd, _⟩
  · omega
  · simp only [sequencerMove, State.nextId, hd]

/-- Each step of the sequencer is the write template, the status-wait template, IDLE, or a mark for a
code that names no operation. -/
theorem sequencerMove_cases (s : State) :
    (s.seqState = 0 ∧ sequencerMove s = .next (s.writeOp 0x00 (fwsSetAccess s.params))) ∨
    (s.seqState = 1 ∧ sequencerMove s = .next (s.pollOp 0x01 (fwsWaitAccess s.params))) ∨
    (s.seqState = 2 ∧ sequencerMove s = .next (s.writeOp 0x02 oscOnAccess)) ∨
    (s.seqState = 3 ∧ sequencerMove s = .next (s.pollOp 0x03 oscWaitAccess)) ∨
    (s.seqState = 4 ∧ sequencerMove s = .next (s.checkReady.writeOp 0x04 muxSelAccess)) ∨
    (s.seqState = 5 ∧ sequencerMove s = .next (s.pollOp 0x05 muxWaitAccess)) ∨
    (s.seqState = 6 ∧ sequencerMove s = .next (s.writeOp 0x06 (tickLoadAccess s.params))) ∨
    (s.seqState = 7 ∧ sequencerMove s = .next (s.writeOp 0x07 tickEnAccess)) ∨
    (s.seqState = 8 ∧ sequencerMove s = .next (s.writeOp 0x08 (freqRecAccess s.params))) ∨
    (s.seqState = 9 ∧ sequencerMove s = .next { s with seqState := 9 }) ∨
    (10 ≤ s.seqState.toNat ∧ sequencerMove s = .next (s.raise (.illegalSeqState s.seqState))) := by
  have key : ∀ c : BitVec 4, c = 0 ∨ c = 1 ∨ c = 2 ∨ c = 3 ∨ c = 4 ∨ c = 5 ∨ c = 6 ∨ c = 7 ∨ c = 8 ∨
      c = 9 ∨ 10 ≤ c.toNat := by decide
  rcases key s.seqState with e | e | e | e | e | e | e | e | e | e | e
  · exact .inl ⟨e, sequencerMove_of_decode (i := .fwsSet) e rfl⟩
  · exact .inr (.inl ⟨e, sequencerMove_of_decode (i := .fwsWait) e rfl⟩)
  · exact .inr (.inr (.inl ⟨e, sequencerMove_of_decode (i := .oscOn) e rfl⟩))
  · exact .inr (.inr (.inr (.inl ⟨e, sequencerMove_of_decode (i := .oscWait) e rfl⟩)))
  · exact .inr (.inr (.inr (.inr (.inl ⟨e, sequencerMove_of_decode (i := .muxSel) e rfl⟩))))
  · exact .inr (.inr (.inr (.inr (.inr (.inl
      ⟨e, sequencerMove_of_decode (i := .muxWait) e rfl⟩)))))
  · exact .inr (.inr (.inr (.inr (.inr (.inr (.inl
      ⟨e, sequencerMove_of_decode (i := .tickLoad) e rfl⟩))))))
  · exact .inr (.inr (.inr (.inr (.inr (.inr (.inr (.inl
      ⟨e, sequencerMove_of_decode (i := .tickEn) e rfl⟩)))))))
  · exact .inr (.inr (.inr (.inr (.inr (.inr (.inr (.inr (.inl
      ⟨e, sequencerMove_of_decode (i := .freqRec) e rfl⟩))))))))
  · exact .inr (.inr (.inr (.inr (.inr (.inr (.inr (.inr (.inr (.inl
      ⟨e, sequencerMove_of_decode (i := .idle) e rfl⟩)))))))))
  · exact .inr (.inr (.inr (.inr (.inr (.inr (.inr (.inr (.inr (.inr
      ⟨e, sequencerMove_of_illegal e⟩)))))))))

/-- The toggler's step (R58, R108). -/
theorem togglerMove_cases (s : State) :
    (s.tickPending = 1#1 ∧ togglerMove s = .next s.takeTick) ∨
    (s.tickPending ≠ 1#1 ∧ togglerMove s = .next s) := by
  unfold togglerMove
  by_cases h : s.tickPending = 1#1
  · exact .inl ⟨h, by rw [if_pos h]; rfl⟩
  · exact .inr ⟨h, by rw [if_neg h]⟩

/-- The step of an agent always completes: nothing but the two refusals in front of it stops a move. -/
theorem agentMove_next (m : Config.Move) (s : State) : ∃ t, agentMove m s = .next t := by
  cases m with
  | sequencer =>
    rcases sequencerMove_cases s with
      h | h | h | h | h | h | h | h | h | h | h <;> exact ⟨_, h.2⟩
  | toggler => rcases togglerMove_cases s with h | h <;> exact ⟨_, h.2⟩
  | flashController => exact ⟨_, rfl⟩
  | oscillator => exact ⟨_, rfl⟩
  | multiplexer => exact ⟨_, rfl⟩
  | tickTimer => exact ⟨_, rfl⟩
  | hostRead off => exact ⟨_, rfl⟩
  | rst => exact ⟨_, rfl⟩

/-- The marks of a move's own fault conditions do not depend on the marks already there (R33: no
operation reads `faults`). -/
theorem agentMove_raiseAll_faults {m : Config.Move} (hm : m ≠ .rst) {s u v : State} {ms : List Mark}
    (hu : agentMove m (s.raiseAll ms) = .next u) (hv : agentMove m s = .next v) (k : Mark) :
    k ∈ u.faults ↔ k ∈ v.faults ∨ k ∈ ms := by
  cases m with
  | rst => exact absurd rfl hm
  | sequencer =>
    have h1 := sequencerMove_cases (s.raiseAll ms)
    have h2 := sequencerMove_cases s
    simp only [State.raiseAll_seqState] at h1
    simp only [agentMove] at hu hv
    rw [hu] at h1
    rw [hv] at h2
    rcases h2 with h | h | h | h | h | h | h | h | h | h | h <;> obtain ⟨hc, h⟩ := h <;> injection h with h <;>
      subst h <;> rcases h1 with g | g | g | g | g | g | g | g | g | g | g <;> obtain ⟨gc, g⟩ := g <;>
      (try (rw [hc] at gc; exact absurd gc (by decide))) <;>
      (try (rw [gc] at hc; exact absurd hc (by decide))) <;> injection g with g <;> subst g <;>
      simp [State.checkReady]
    · split <;> simp [or_right_comm]
    · exact or_right_comm
  | toggler =>
    have h1 := togglerMove_cases (s.raiseAll ms)
    have h2 := togglerMove_cases s
    simp only [agentMove] at hu hv
    rw [hu] at h1
    rw [hv] at h2
    simp only [State.raiseAll_tickPending] at h1
    rcases h2 with h | h <;> obtain ⟨hc, h⟩ := h <;> injection h with h <;> subst h <;>
      rcases h1 with g | g <;> obtain ⟨gc, g⟩ := g <;> (try contradiction) <;> injection g with g <;>
      subst g <;> simp
  | flashController =>
    have he : (s.raiseAll ms).flashLatchEnabled = s.flashLatchEnabled := by simp [State.flashLatchEnabled]
    simp only [agentMove, he] at hu hv
    injection hu with hu
    injection hv with hv
    subst hu hv
    split <;> simp [State.flashLatch, State.emit]
  | oscillator =>
    have he : (s.raiseAll ms).oscReadyEnabled = s.oscReadyEnabled := by simp [State.oscReadyEnabled]
    simp only [agentMove, he] at hu hv
    injection hu with hu
    injection hv with hv
    subst hu hv
    split <;> simp [State.oscReady, State.emit]
  | multiplexer =>
    have he : (s.raiseAll ms).muxSwitchEnabled = s.muxSwitchEnabled := by
      simp [State.muxSwitchEnabled, State.srcReady, State.oscillatorReady]
    have ht : ∀ c, (s.raiseAll ms).timingOkFor c = s.timingOkFor c := by
      simp [State.timingOkFor, State.baseHz]
    simp only [agentMove, he] at hu hv
    injection hu with hu
    injection hv with hv
    subst hu hv
    split
    · simp only [State.muxSwitch, State.emit, State.checkTiming, ht, State.raiseAll_sw, State.raiseAll_wsAct]
      split <;> simp [or_right_comm]
    · simp
  | tickTimer =>
    have he : (s.raiseAll ms).tickFireEnabled = s.tickFireEnabled := by simp [State.tickFireEnabled]
    simp only [agentMove, he] at hu hv
    injection hu with hu
    injection hv with hv
    subst hu hv
    split
    · simp only [State.tickFire, State.emit, State.raiseAll_tickPending, State.raiseAll_tickCount]
      split <;> simp [or_right_comm]
    · simp
  | hostRead off =>
    simp only [agentMove] at hu hv
    injection hu with hu
    injection hv with hv
    subst hu hv
    simp only [State.hostRead, State.regRead]
    cases Reg.ofOffset off <;> simp [State.emit, or_right_comm]

/-- What a refused run's marks are (R63, R105, R111): those of the move's own step, and one for each
reserved field. -/
theorem State.mem_refuseMarked_faults {m : Config.Move} (hm : m ≠ .rst) {s v : State}
    (hv : agentMove m s = .next v) (k : Mark) :
    k ∈ (s.refuseMarked m).faults ↔ k ∈ v.faults ∨ k ∈ s.reservedMarks := by
  obtain ⟨u, hu⟩ := agentMove_next m (s.raiseAll s.reservedMarks)
  rw [← agentMove_raiseAll_faults hm hu hv]
  simp only [State.refuseMarked, hu]

/-- The state a refused run is left in differs in `faults` alone. -/
theorem State.refuseMarked_eq (s : State) (m : Config.Move) :
    s.refuseMarked m = { s with faults := (s.refuseMarked m).faults } := by
  obtain ⟨t, ht⟩ := agentMove_next m (s.raiseAll s.reservedMarks)
  simp only [State.refuseMarked, ht]

/-- When a move answers a next state: the parameters are well formed, no reserved field value is held
(or the move is `rst`), and the state is that of the agent's step. -/
theorem move_eq_next {m : Config.Move} {s t : State} :
    move m s = .next t ↔
      s.params.WellFormed ∧ (m = .rst ∨ s.reservedFields = []) ∧ agentMove m s = .next t := by
  unfold move Config.Params.WellFormed
  by_cases hp : s.params.problems = []
  · by_cases hr : m ≠ .rst ∧ s.reservedFields ≠ []
    · simp [hp, hr]
    · have : m = .rst ∨ s.reservedFields = [] := by
        by_cases hm : m = .rst
        · exact .inl hm
        · exact .inr (by simpa [hm] using hr)
      rw [if_neg (by simpa using hp), if_neg hr]
      exact ⟨fun h => ⟨hp, this, h⟩, fun h => h.2.2⟩
  · simp [hp]

/-- When a move is refused with marks: the parameters are well formed, the move is not `rst`, a reserved
field value is held, and the state is the one with the marks added (R63). -/
theorem move_eq_refused_marked {m : Config.Move} {s t : State} :
    move m s = .refused (.reservedFieldValues t) ↔
      s.params.WellFormed ∧ m ≠ .rst ∧ s.reservedFields ≠ [] ∧ t = s.refuseMarked m := by
  unfold move Config.Params.WellFormed
  by_cases hp : s.params.problems = []
  · by_cases hr : m ≠ .rst ∧ s.reservedFields ≠ []
    · simp [hp, hr, eq_comm]
    · obtain ⟨u, hu⟩ := agentMove_next m s
      rw [if_neg (by simpa using hp), if_neg hr, hu]
      exact ⟨fun h => (nomatch h), fun h => absurd ⟨h.2.1, h.2.2.1⟩ hr⟩
  · simp [hp]

/-- A step is the schedule's next move (R8). -/
theorem step_eq (s : State) : step s = move s.nextMove s.popMove := rfl

end Sys2Proof.Machine
end

