-- ==== Sys2Proof/Laws/PerInstr.lean ====
section
/-! SUPPORT. The family of statements per operation: its encoding. One row of the operation table
matches the id, the decoder reads the operation back, and the operation is well formed
(spec/30_encoding.md R57, R58). -/

namespace Sys2Proof.Laws

/-- What holds of the encoding of an operation: it is one of the operations, exactly its own row of the
table matches its id, and it is read back from its id and from the bits of the table. -/
def Encoding.Statement (i : Instr) : Prop :=
  i.WellFormed ∧
  (opTable.filter fun r => r.accepts (encode i)) = [⟨encode i, 0x1F#5, i⟩] ∧
  decode (encode i) = .ok i ∧
  decodeTableWord 8 (encode i).toNat = some i

theorem Encoding.fwsSet : Encoding.Statement .fwsSet := by unfold Encoding.Statement; decide

theorem Encoding.fwsWait : Encoding.Statement .fwsWait := by unfold Encoding.Statement; decide

theorem Encoding.oscOn : Encoding.Statement .oscOn := by unfold Encoding.Statement; decide

theorem Encoding.oscWait : Encoding.Statement .oscWait := by unfold Encoding.Statement; decide

theorem Encoding.muxSel : Encoding.Statement .muxSel := by unfold Encoding.Statement; decide

theorem Encoding.muxWait : Encoding.Statement .muxWait := by unfold Encoding.Statement; decide

theorem Encoding.tickLoad : Encoding.Statement .tickLoad := by unfold Encoding.Statement; decide

theorem Encoding.tickEn : Encoding.Statement .tickEn := by unfold Encoding.Statement; decide

theorem Encoding.freqRec : Encoding.Statement .freqRec := by unfold Encoding.Statement; decide

theorem Encoding.idle : Encoding.Statement .idle := by unfold Encoding.Statement; decide

theorem Encoding.tglTick : Encoding.Statement .tglTick := by unfold Encoding.Statement; decide

/-- No two rows of the operation table match one id (R58: "at most one row matches"). -/
theorem opTable_rows_disjoint :
    opTable.Pairwise fun a b => ∀ id : BitVec 5, ¬ (a.accepts id = true ∧ b.accepts id = true) := by
  decide

end Sys2Proof.Laws
end

