-- ==== Sys2Proof/Tests/Slice0.lean ====
section
/-! SUPPORT. The model's own tests: the checks of a parameter set, the decoder on words written out from
spec/30_encoding.md R57, vectors of spec/95_test_vectors.md, and for every statement with hypotheses a
state that meets them. Every expected value is the spec's. -/

open Sys2Proof Sys2Proof.Machine Sys2Proof.Config

namespace Sys2Proof.Tests

/-! ### Helpers -/

/-- The next state of an outcome. -/
def nextOf (o : Host.Outcome State Fault Refusal) : Option State :=
  match o with
  | .next t => some t
  | .fault _ => none
  | .refused _ => none

/-- The reason an outcome is refused. -/
def refusalOf (o : Host.Outcome State Fault Refusal) : Option Refusal :=
  match o with
  | .next _ => none
  | .fault _ => none
  | .refused r => some r

/-- RESET of spec/95_test_vectors.md for the reference instantiation, the output latch at level 0. -/
def fresh : State := State.resetWith Params.reference 0#1

/-- RESET with other parameters. -/
def freshWith (p : Params) : State := State.resetWith p 0#1

/-- The registers at the end of program PG1, with an empty trace. -/
def configured : State :=
  { fresh with
    wsReq := 1, wsAct := 1, hsoscOn := 1, hsoscRdy := 1, sw := 1, sws := 1, period := 48000, en := 1
    hz := 48000000, seqState := 9, rdLatch := some 5 }

/-- The trace of program PG1. -/
def traceOfPG1 : List Event :=
  [.write 0x00 0x00 0x00000007 0x00000001, .env .flashLatch, .read 0x01 0x00 0x00000011,
   .write 0x02 0x04 0x00000001 0x00000001, .env .oscReady, .read 0x03 0x04 0x00000003,
   .write 0x04 0x08 0x000007F3 0x00000001, .env .muxSwitch, .read 0x05 0x08 0x00000005,
   .write 0x06 0x10 0x00FFFFFF 0x0000BB80, .write 0x07 0x0C 0x00000001 0x00000001,
   .write 0x08 0x14 0xFFFFFFFF 0x02DC6C00]

/-- A state about to service a tick. -/
def pendingTick (count : Word) (pin out : BitVec 1) : State :=
  { configured with tickPending := 1, tickCount := count, pinState := pin, out := out }

/-! ### Well-formed parameters: the reference set, and one ill-formed set per check (R12) -/

theorem test_reference_wellFormed : Params.reference.WellFormed := by decide

theorem test_check_targetRange :
    ParamCheck.targetRange ∈ { Params.reference with targetHz := 4294967296 }.problems := by decide

theorem test_check_defaultRange :
    ParamCheck.defaultRange ∈ { Params.reference with defaultHz := 0 }.problems := by decide

theorem test_check_defaultBelowTarget :
    { Params.reference with targetHz := 8000000 }.problems = [.defaultBelowTarget] := by decide

theorem test_check_tableNonEmpty :
    ParamCheck.tableNonEmpty ∈ { Params.reference with wsTable := [] }.problems := by decide

theorem test_check_limitsAscending :
    { Params.reference with wsTable := [(24000000, 0), (24000000, 1), (48000000, 1)] }.problems =
      [.limitsAscending] := by decide

theorem test_check_countsNonDecreasing :
    { Params.reference with wsTable := [(8000000, 0), (24000000, 2), (48000000, 1)] }.problems =
      [.countsNonDecreasing] := by decide

theorem test_check_countsFit :
    { Params.reference with wsTable := [(24000000, 0), (48000000, 8)] }.problems = [.countsFit] := by
  decide

/-- L6 as a target: above the table. -/
theorem test_check_targetLookup :
    { Params.reference with targetHz := 48000001 }.problems.head? = some .targetLookup := by
  simp only [Params.problems, ParamCheck.all]; decide

theorem test_check_defaultLookupZero :
    { Params.reference with defaultHz := 24000001 }.problems = [.defaultLookupZero] := by decide

/-- L15: a target of 999 Hz gives a period of 0 cycles. -/
theorem test_check_periodRange :
    { Params.reference with targetHz := 999, defaultHz := 998 }.problems = [.periodRange] := by decide

theorem test_illFormed_refused :
    refusalOf (move .sequencer (freshWith { Params.reference with defaultHz := 24000001 })) =
      some (.illFormedParams [.defaultLookupZero]) := by decide

/-! ### Decoding: the eleven words of R57, bit by bit, and the ids of R62 -/

theorem test_decode_flash_timing :
    decode 0b00000#5 = .ok .fwsSet ∧ decode 0b00001#5 = .ok .fwsWait := by decide

theorem test_decode_oscillator_and_multiplexer :
    decode 0b00010#5 = .ok .oscOn ∧ decode 0b00011#5 = .ok .oscWait ∧
    decode 0b00100#5 = .ok .muxSel ∧ decode 0b00101#5 = .ok .muxWait := by decide

theorem test_decode_tick_timer :
    decode 0b00110#5 = .ok .tickLoad ∧ decode 0b00111#5 = .ok .tickEn ∧
    decode 0b01000#5 = .ok .freqRec ∧ decode 0b01001#5 = .ok .idle := by decide

theorem test_decode_toggler : decode 0b10000#5 = .ok .tglTick := by decide

/-- X3, at both ends of the two ranges. -/
theorem test_decode_illegal :
    decode 0x0A#5 = .error (.illegalSequencerCode 10) ∧
    decode 0x0F#5 = .error (.illegalSequencerCode 15) ∧
    decode 0x11#5 = .error (.illegalTogglerCode 1) ∧
    decode 0x1F#5 = .error (.illegalTogglerCode 15) := by decide

theorem test_decodeBytes :
    decodeBytes [0x10#8, 0x55#8] = .ok (.tglTick, [0x55#8]) ∧ decodeBytes [] = .error .noBytes := by
  decide

/-- The reference words of R60. -/
theorem test_reference_descriptors :
    fwsSetAccess .reference = ⟨.flashTiming, 0x00000007, 0x00000001⟩ ∧
    fwsWaitAccess .reference = ⟨.flashTiming, 0x00000070, 0x00000010⟩ ∧
    oscOnAccess = ⟨.oscCtrl, 0x00000001, 0x00000001⟩ ∧
    oscWaitAccess = ⟨.oscCtrl, 0x00000002, 0x00000002⟩ ∧
    muxSelAccess = ⟨.clkCfg, 0x000007F3, 0x00000001⟩ ∧
    muxWaitAccess = ⟨.clkCfg, 0x0000000C, 0x00000004⟩ ∧
    tickLoadAccess .reference = ⟨.tickPeriod, 0x00FFFFFF, 0x0000BB80⟩ ∧
    tickEnAccess = ⟨.tickCtrl, 0x00000001, 0x00000001⟩ ∧
    freqRecAccess .reference = ⟨.coreFreq, 0xFFFFFFFF, 0x02DC6C00⟩ ∧
    tglTickAccess 1 = ⟨.pinBsr, 0x00000003, 0x00000001⟩ ∧
    tglTickAccess 0 = ⟨.pinBsr, 0x00000003, 0x00000002⟩ := by decide

/-- A descriptor that masks the read-only `WS_ACT`, or sets data outside its mask, is not well formed. -/
theorem test_descriptor_checks :
    WriteAccess.wellFormed .sequencer ⟨.flashTiming, 0x00000077, 0x00000001⟩ = false ∧
    WriteAccess.wellFormed .sequencer ⟨.flashTiming, 0x00000007, 0x00000008⟩ = false ∧
    PollAccess.wellFormed ⟨.clkCfg, 0x0000000F, 0x00000004⟩ = false ∧
    PollAccess.wellFormed ⟨.clkCfg, 0x0000000C, 0x00000001⟩ = false := by decide

/-- The two written forms of R64. -/
theorem test_written_form :
    (Event.write 0x00 0x00 0x00000007 0x00000001).text = "FWS.SET (W 0x00 m=0x00000007 d=0x00000001)" ∧
    (Event.read 0x03 0x04 0x00000001).text = "OSC.WAIT (R 0x04 -> 0x00000001)" := by decide

/-! ### Lookup and period: L1 to L14 (R75, R76, R88) -/

theorem test_lookup :
    ([1, 8000000, 24000000, 24000001, 48000000, 48000001, 0].map (wsLookup Params.reference.wsTable)) =
      [some 0, some 0, some 0, some 1, some 1, none, none] := by decide

theorem test_timing_ok :
    timingOk Params.reference.wsTable 48000000 0 = false ∧
    timingOk Params.reference.wsTable 48000000 1 = true ∧
    timingOk Params.reference.wsTable 8000000 1 = true ∧
    timingOk Params.reference.wsTable 48000000 7 = true := by decide

theorem test_period :
    Params.reference.tickPeriodCycles = 0xBB80 ∧
    { Params.reference with targetHz := 8000999 }.tickPeriodCycles = 8000 ∧
    { Params.reference with targetHz := 24000000 }.tickPeriodCycles = 0x5DC0 := by decide

/-! ### Register access: M1 to M14 -/

theorem test_M1_M3_M4 :
    (fresh.regWrite .sequencer 0x00 0x00000007 0x00000001).readReg .flashTiming = 0x00000001 ∧
    (fresh.regWrite .sequencer 0x08 0x000007F3 0x00000001).readReg .clkCfg = 0x00000001 ∧
    (fresh.regWrite .sequencer 0x10 0x00FFFFFF 0x0000BB80).readReg .tickPeriod = 0x0000BB80 := by decide

/-- The pin writes M5 to M8, each from the level its row names. -/
theorem test_M5_to_M8 :
    (fresh.regWrite .toggler 0x18 3 1).readReg .pinData = 1 ∧
    (fresh.regWrite .toggler 0x18 3 1).readReg .pinBsr = 0 ∧
    ({ fresh with out := 1 }.regWrite .toggler 0x18 3 2).readReg .pinData = 0 ∧
    ({ fresh with out := 1 }.regWrite .toggler 0x18 3 1).readReg .pinData = 1 ∧
    fresh.regWrite .toggler 0x18 3 0 = fresh := by decide

theorem test_M9_to_M11 :
    (fresh.regWrite .toggler 0x18 3 3).faults = [.reservedAccess (.offset 0x18)] ∧
    (nextOf (move (.hostRead 0x02) fresh)).map State.faults = some [.reservedAccess (.offset 0x02)] ∧
    (nextOf (move (.hostRead 0x20) fresh)).map State.faults = some [.reservedAccess (.offset 0x20)] := by
  decide

theorem test_M12_M13 :
    fresh.regRead 0x14 = some 0x007A1200 ∧
    (State.resetWith .reference 1).regRead 0x1C = some 0x00000001 := by decide

theorem test_M14 :
    ([0x14, 0x15, 0x16, 0x17, 0x20].map configured.readByte) =
      [some 0x00, some 0x6C, some 0xDC, some 0x02, none] := by decide

/-- The toggler may write no clock register and the sequencer not the pin (R36). -/
theorem test_writers :
    fresh.regWrite .toggler 0x04 1 1 = fresh ∧ fresh.regWrite .sequencer 0x18 3 1 = fresh ∧
    fresh.regWrite .sequencer 0x04 0xFFFFFFFF 0xFFFFFFFE = fresh := by decide

/-- U16: reading `rd_latch` before the first poll is a fault, after it the word polled. -/
theorem test_rd_latch :
    fresh.readLatch = .error .emptyLatchRead ∧ configured.readLatch = .ok 5 := ⟨rfl, rfl⟩

/-! ### Flash timing: F1 to F7 -/

theorem test_F1 :
    (nextOf (exec .fwsSet fresh)).map (fun t => (t.readReg .flashTiming, t.seqState, t.trace)) =
      some (0x00000001, 1, [.write 0x00 0x00 0x00000007 0x00000001]) := by decide

theorem test_F2 :
    (nextOf (exec .fwsWait { fresh with wsReq := 1, seqState := 1 })).map
      (fun t => (t.rdLatch, t.seqState, t.trace)) =
      some (some 0x00000001, 1, [.read 0x01 0x00 0x00000001]) := by decide

theorem test_F3_F5_F6 :
    (nextOf (move .flashController { fresh with wsReq := 1 })).map
      (fun t => (t.readReg .flashTiming, t.trace, t.flashLatchEnabled)) =
      some (0x00000011, [.env .flashLatch], false) ∧
    fresh.flashLatchEnabled = false ∧
    { fresh with wsReq := 1, params := { Params.reference with flashLatches := false } }.flashLatchEnabled =
      false := by decide

theorem test_F4 :
    (nextOf (exec .fwsWait { fresh with wsReq := 1, wsAct := 1, seqState := 1 })).map
      (fun t => (t.rdLatch, t.seqState)) = some (some 0x00000011, 2) := by decide

/-- F7: with a target of 24 MHz no wait state is needed, and the first poll ends the wait. -/
theorem test_F7 :
    (nextOf (exec .fwsWait
      { freshWith { Params.reference with targetHz := 24000000, flashLatches := false } with seqState := 1 })).map
      (fun t => (t.readReg .flashTiming, t.seqState)) = some (0x00000000, 2) := by decide

/-! ### Oscillator and multiplexer: O1 to O12 -/

theorem test_O1 :
    (nextOf (exec .oscOn { fresh with seqState := 2 })).map
      (fun t => (t.readReg .oscCtrl, t.seqState, t.trace)) =
      some (0x00000001, 3, [.write 0x02 0x04 0x00000001 0x00000001]) := by decide

theorem test_O2_O4 :
    fresh.oscReadyEnabled = false ∧
    (nextOf (move .oscillator { fresh with hsoscOn := 1 })).map
      (fun t => (t.readReg .oscCtrl, t.oscReadyEnabled)) = some (0x00000003, false) := by decide

theorem test_O3_O5 :
    (nextOf (exec .oscWait { fresh with hsoscOn := 1, seqState := 3 })).map
      (fun t => (t.rdLatch, t.seqState)) = some (some 0x00000001, 3) ∧
    (nextOf (exec .oscWait { fresh with hsoscOn := 1, hsoscRdy := 1, seqState := 3 })).map
      (fun t => (t.rdLatch, t.seqState)) = some (some 0x00000003, 4) := by decide

theorem test_O7 :
    (nextOf (exec .muxSel { fresh with hsoscOn := 1, hsoscRdy := 1, seqState := 4 })).map
      (fun t => (t.readReg .clkCfg, t.seqState, t.trace, t.faults)) =
      some (0x00000001, 5, [.write 0x04 0x08 0x000007F3 0x00000001], []) := by decide

theorem test_O8_O10 :
    (nextOf (exec .muxWait { fresh with sw := 1, seqState := 5 })).map
      (fun t => (t.rdLatch, t.seqState, t.sysclkHz)) = some (some 0x00000001, 5, some 8000000) ∧
    (nextOf (exec .muxWait { fresh with sw := 1, sws := 1, seqState := 5 })).map
      (fun t => (t.rdLatch, t.seqState)) = some (some 0x00000005, 6) := by decide

theorem test_O9 :
    (nextOf (move .multiplexer
      { fresh with hsoscOn := 1, hsoscRdy := 1, sw := 1, wsReq := 1, wsAct := 1 })).map
      (fun t => (t.readReg .clkCfg, t.sysclkHz, t.faults)) = some (0x00000005, some 48000000, []) := by
  decide

/-- O11: the mark, the write, and no switch until the oscillator is ready. -/
theorem test_O11 :
    (nextOf (exec .muxSel { fresh with hsoscOn := 1, seqState := 4 })).map
      (fun t => (t.faults, t.readReg .clkCfg, t.muxSwitchEnabled)) =
      some ([.switchBeforeReady 4], 0x00000001, false) := by decide

theorem test_O12 :
    (nextOf (move .multiplexer { fresh with sw := 1, hsoscOn := 1, hsoscRdy := 1, wsReq := 1 })).map
      (fun t => (t.faults, t.readReg .clkCfg)) = some ([.flashTimingViolation 1 0], 0x00000005) := by
  decide

/-! ### Tick timer: K1 to K8 -/

theorem test_K1_K2 :
    (nextOf (exec .tickLoad { fresh with seqState := 6 })).map
      (fun t => (t.readReg .tickPeriod, t.seqState, t.trace, t.tickFireEnabled)) =
      some (0x0000BB80, 7, [.write 0x06 0x10 0x00FFFFFF 0x0000BB80], false) := by decide

theorem test_K3 :
    (nextOf (exec .tickEn { fresh with seqState := 7 })).map
      (fun t => (t.readReg .tickCtrl, t.seqState, t.trace)) =
      some (0x00000001, 8, [.write 0x07 0x0C 0x00000001 0x00000001]) := by decide

theorem test_K4_K7 :
    (nextOf (move .tickTimer configured)).map (fun t => (t.tickPending, t.trace, t.faults)) =
      some (1, [.fire], []) ∧
    (nextOf (move .tickTimer (pendingTick 41 0 0))).map (fun t => (t.tickPending, t.trace, t.faults)) =
      some (1, [.fire], [.tickOverrun 41]) := by decide

theorem test_K5 :
    (nextOf (exec .freqRec { fresh with seqState := 8 })).map
      (fun t => (t.readReg .coreFreq, t.cfgDone, t.trace)) =
      some (0x02DC6C00, true, [.write 0x08 0x14 0xFFFFFFFF 0x02DC6C00]) := by decide

theorem test_K6 : nextOf (move .sequencer configured) = some configured := by decide

/-- The rate of R93: 48 000 000 / 48 000. -/
theorem test_rate : configured.tickRate = some (48000000, 48000) := by decide

/-! ### Toggler: T1, T3, T5, T7, T10, T12 -/

theorem test_T1_T12 :
    (nextOf (exec .tglTick (pendingTick 0 0 1))).map
      (fun t => (t.tickCount, t.pinState, t.out, t.trace)) = some (1, 0, 1, [.tgl 1 false 0]) ∧
    (nextOf (exec .tglTick (pendingTick 0xFFFFFFFE 1 1))).map
      (fun t => (t.tickCount, t.pinState, t.out, t.trace)) =
      some (0xFFFFFFFF, 1, 1, [.tgl 4294967295 false 1]) := by decide

/-- Both directions of the toggle, the first toggle of a pin that is HIGH, and the wrap. -/
theorem test_T3_T5_T7_T10 :
    (((nextOf (exec .tglTick (pendingTick 999 0 0))).map fun t => (t.tickCount, t.out, t.trace)) =
      some (1000, 1, [.tgl 1000 true 1])) ∧
    ((nextOf (exec .tglTick (pendingTick 1999 1 1))).map fun t => (t.tickCount, t.out, t.trace)) =
      some (2000, 0, [.tgl 2000 true 0]) ∧
    ((nextOf (exec .tglTick (pendingTick 999 0 1))).map fun t => (t.pinState, t.out)) = some (1, 1) ∧
    ((nextOf (exec .tglTick (pendingTick 0xFFFFFFFF 1 1))).map fun t => (t.tickCount, t.out, t.trace)) =
      some (0, 0, [.tgl 0 true 0]) := by decide

/-- The write a toggle implies (R95). -/
theorem test_toggle_write :
    (Event.tgl 1000 true 1).registerWrite = some (0x10, 0x18, 0x00000003, 0x00000001) ∧
    (Event.tgl 2000 true 0).registerWrite = some (0x10, 0x18, 0x00000003, 0x00000002) ∧
    (Event.tgl 1001 false 1).registerWrite = none := by decide

/-! ### Illegal codes, reserved values, reset: X1, R63, Z3, Z4 -/

theorem test_X1_X2 :
    (nextOf (move .sequencer { fresh with seqState := 10 })).map (fun t => (t.seqState, t.faults)) =
      some (10, [.illegalSeqState 10]) ∧
    (nextOf (move .sequencer { fresh with seqState := 15 })).map State.faults =
      some [.illegalSeqState 15] := by decide

/-- The marks of a refusal for reserved field values. -/
def refusedMarks (o : Host.Outcome State Fault Refusal) : Option (List Mark) :=
  match o with
  | .refused (.reservedFieldValues t) => some t.faults
  | .refused (.illFormedParams _) => none
  | .refused (.notModelled _) => none
  | .next _ => none
  | .fault _ => none

/-- One state per reserved field value of R63: refused, with the mark of the field in `faults`. -/
theorem test_reserved_refused :
    ([{ fresh with sw := 2 }, { fresh with sws := 3 }, { fresh with hpre := 1 }, { fresh with ppre := 7 },
      { fresh with wsReq := 2 }, { fresh with en := 1 }].map fun s => refusedMarks (move .sequencer s)) =
      ([.sw, .sws, .hpre, .ppre, .wsReq, .period] : List RegField).map fun f =>
        some [.reservedAccess (.field f)] := by decide

/-- A reserved prescaler together with another condition: all the marks are added (R111). -/
theorem test_reserved_all_marks :
    refusedMarks (move .sequencer { fresh with hpre := 1, seqState := 4 }) =
      some [.reservedAccess (.field .hpre), .switchBeforeReady 4] ∧
    refusedMarks (move (.hostRead 0x20) { fresh with hpre := 1, sw := 2, faults := [.tickOverrun 3] }) =
      some [.tickOverrun 3, .reservedAccess (.field .sw), .reservedAccess (.field .hpre),
        .reservedAccess (.offset 0x20)] := by decide

theorem test_Z3_Z4 :
    (nextOf (move .rst { pendingTick 1500 1 1 with faults := [.tickOverrun 3] })).map
      (fun t => (t.tickPending, t.tickCount, t.pinState, t.faults, t.seqState)) =
      some (0, 0, 0, [], 0) := by decide

/-- Reset leaves even a state that holds a reserved field value (R120). -/
theorem test_reset_of_reserved :
    (nextOf (move .rst { fresh with sw := 3 })).map (fun t => t.sw) = some 0 := by decide

/-! ### States that meet the hypotheses of the statements -/

theorem fresh_runs : fresh.Runs := ⟨by decide, by decide⟩

theorem configured_runs : configured.Runs := ⟨by decide, by decide⟩

theorem fresh_inOrder : fresh.InOrder := by constructor <;> decide

theorem configured_inOrder : configured.InOrder := by constructor <;> decide

theorem test_witness_DecodeInvertsEncode :
    (∃ e, decode 0x0A#5 = .error e) ∧ (∃ e, decode 0x0F#5 = .error e) ∧ (∃ e, decode 0x11#5 = .error e) ∧
    (∃ e, decode 0x1F#5 = .error e) ∧ encode .idle = 0x09#5 ∧ encode .tglTick = 0x10#5 :=
  ⟨⟨_, rfl⟩, ⟨_, rfl⟩, ⟨_, rfl⟩, ⟨_, rfl⟩, rfl, rfl⟩

theorem test_witness_StepRunsSequencerOperation :
    { fresh with moves := [.sequencer] }.Runs ∧ { fresh with moves := [.sequencer] }.nextMove = .sequencer ∧
    encode .fwsSet = mkId 0#1 fresh.seqState := ⟨⟨by decide, by decide⟩, rfl, by decide⟩

/-- Both with a tick pending and without. -/
theorem test_witness_StepRunsTogglerOperation :
    { configured with moves := [.toggler] }.Runs ∧ { configured with moves := [.toggler] }.nextMove = .toggler ∧
    { pendingTick 0 0 0 with moves := [.toggler] }.Runs ∧
    { pendingTick 0 0 0 with moves := [.toggler] }.nextMove = .toggler :=
  ⟨⟨by decide, by decide⟩, rfl, ⟨by decide, by decide⟩, rfl⟩

theorem test_witness_PlacedOperationRunsNext : fresh.Runs ∧ configured.Runs := ⟨fresh_runs, configured_runs⟩

theorem test_witness_RstFromAnyState : { fresh with sw := 3 }.params.WellFormed := by decide

/-- A bit of a field, the reserved bit just above the fields, and the highest bit. -/
theorem test_witness_RegisterWordIsItsFields :
    RegField.ppre.covers .clkCfg 10 = true ∧ reservedBit .clkCfg 11 = true ∧
    RegField.hz.covers .coreFreq 31 = true ∧ reservedBit .pinData 31 = true := by decide

/-- A masked bit of an owned field, one of a field the writer does not own, and the highest bit. -/
theorem test_witness_WriteChangesMaskedOwnedBits :
    Reg.clkCfg ≠ .pinBsr ∧ writableBit .sequencer .clkCfg 10 = true ∧
    writableBit .sequencer .clkCfg 3 = false ∧ writableBit .sequencer .coreFreq 31 = true := by decide

theorem test_witness_PinBsrSetsOrClears :
    ([1, 2, 0, 3] : List Word).map (fun d => ((3#32).getLsbD 0 && d.getLsbD 0, (3#32).getLsbD 1 && d.getLsbD 1)) =
      [(true, false), (false, true), (false, false), (true, true)] := by decide

/-- A misaligned offset inside the map, the first and the last reserved offsets. -/
theorem test_witness_BadHostReadIsMarked :
    (0x1D#8).toNat % 4 ≠ 0 ∧ 0x20 ≤ (0x20#8).toNat ∧ 0x20 ≤ (0xFC#8).toNat ∧ fresh.regRead 0x1C ≠ none := by
  decide

theorem test_witness_TimingOkIsMonotone :
    Params.reference.WellFormed ∧ timingOk Params.reference.wsTable 48000000 1 = true ∧
    1 ≤ 24000000 ∧ 24000000 ≤ 48000000 := by decide

/-- An ill-formed set, and for well-formed parameters both a state that is refused and one that is not. -/
theorem test_witness_RefusedExactlyWhenReserved :
    ¬ { Params.reference with targetHz := 999 }.WellFormed ∧
    refusalOf (move .sequencer { fresh with sw := 2 }) ≠ none ∧
    refusalOf (move .sequencer { fresh with sw := 1 }) = none ∧ { fresh with sw := 2 }.HoldsReserved .sw ∧
    refusalOf (move .sequencer fresh) = none :=
  ⟨by decide, by decide, by decide, Nat.le_refl 2, by decide⟩

theorem test_witness_WriteTemplate :
    encode .fwsSet = mkId 0#1 fresh.seqState ∧
    access Params.reference .fwsSet = .write (fwsSetAccess .reference) ∧
    encode .muxSel = mkId 0#1 { fresh with seqState := 4 }.seqState ∧
    access Params.reference .muxSel = .write muxSelAccess := ⟨rfl, rfl, rfl, rfl⟩

theorem test_witness_PollTemplate :
    encode .oscWait = mkId 0#1 { fresh with seqState := 3 }.seqState ∧
    access Params.reference .oscWait = .poll oscWaitAccess := ⟨rfl, rfl⟩

/-- The byte just above the register FWS.SET stores to, and a tick that toggles. -/
theorem test_witness_OperationsKeepOtherBytes :
    (∃ t, exec .fwsSet fresh = .next t) ∧ fresh.storedRegister .fwsSet = some .flashTiming ∧
    (0x04#8) &&& 0xFC#8 ≠ Reg.flashTiming.offset ∧ fresh.storedRegister .fwsWait = none ∧
    (pendingTick 999 0 0).storedRegister .tglTick = some .pinData ∧
    (pendingTick 0 0 0).storedRegister .tglTick = none :=
  ⟨⟨_, rfl⟩, by decide⟩

/-- One state per operation of the sequencer, at the code that names it. -/
theorem test_witness_operations :
    ∀ i ∈ Instr.configure ++ [.idle], ∃ s : State, s.params.WellFormed ∧ encode i = mkId 0#1 s.seqState := by
  intro i _
  exact ⟨{ fresh with seqState := idCode (encode i) }, test_reference_wellFormed, by cases i <;> first | rfl | simp_all [Instr.configure]⟩

/-- A tick that toggles and one that does not. -/
theorem test_witness_TglTickCountsAndToggles :
    (pendingTick 999 0 0).tickPending = 1 ∧
    (0xFFFFFFFF#32 + 1#32).toNat % 1000 = 0 ∧ (999#32 + 1#32).toNat % 1000 = 0 ∧
    (1000#32 + 1#32).toNat % 1000 ≠ 0 := by decide

theorem test_witness_MovesWithoutStep :
    { fresh with seqState := 10 }.Runs ∧ 10 ≤ { fresh with seqState := 10 }.seqState.toNat ∧
    (∀ a ∈ agents, a ≠ .sequencer → fresh.enabled a = false) :=
  ⟨⟨by decide, by decide⟩, by decide, by decide⟩

/-- FlashLatch and OscReady, each enabled in one state and not in another. -/
theorem test_witness_FlashLatch_OscReady :
    { fresh with wsReq := 1 }.Runs ∧ { fresh with wsReq := 1 }.flashLatchEnabled = true ∧
    { fresh with hsoscOn := 1 }.Runs ∧ { fresh with hsoscOn := 1 }.oscReadyEnabled = true ∧
    fresh.flashLatchEnabled = false ∧ fresh.oscReadyEnabled = false :=
  ⟨⟨by decide, by decide⟩, by decide, ⟨by decide, by decide⟩, by decide, by decide, by decide⟩

/-- MuxSwitch: the timing in order, not in order, and no step. -/
theorem test_witness_MuxSwitchNeedsReadySource :
    { fresh with sw := 1, hsoscRdy := 1, wsReq := 1, wsAct := 1 }.Runs ∧
    { fresh with sw := 1, hsoscRdy := 1, wsReq := 1, wsAct := 1 }.muxSwitchEnabled = true ∧
    timingOk Params.reference.wsTable 48000000 1 = true ∧
    { fresh with sw := 1, hsoscRdy := 1 }.Runs ∧
    { fresh with sw := 1, hsoscRdy := 1 }.muxSwitchEnabled = true ∧
    timingOk Params.reference.wsTable 48000000 0 = false ∧ fresh.muxSwitchEnabled = false :=
  ⟨⟨by decide, by decide⟩, by decide, by decide, ⟨by decide, by decide⟩, by decide, by decide, by decide⟩

theorem test_witness_TickFireOrOverrun :
    fresh.Runs ∧ fresh.en = 0 ∧ configured.Runs ∧ configured.en = 1 ∧ configured.tickPending = 0 ∧
    (pendingTick 41 0 0).Runs ∧ (pendingTick 41 0 0).tickPending = 1 :=
  ⟨fresh_runs, rfl, configured_runs, rfl, rfl, ⟨by decide, by decide⟩, rfl⟩

/-- A move of every agent that owns state, each with a next state. -/
theorem test_witness_OnlyOwnersWrite :
    (∃ t, move .sequencer fresh = .next t) ∧ (∃ t, move .toggler (pendingTick 999 0 0) = .next t) ∧
    (∃ t, move .flashController { fresh with wsReq := 1 } = .next t) ∧
    (∃ t, move .oscillator { fresh with hsoscOn := 1 } = .next t) ∧
    (∃ t, move .multiplexer { fresh with sw := 1, hsoscRdy := 1 } = .next t) ∧
    (∃ t, move .tickTimer configured = .next t) ∧ (∃ t, move (.hostRead 0x14) fresh = .next t) :=
  ⟨⟨_, rfl⟩, ⟨_, rfl⟩, ⟨_, rfl⟩, ⟨_, rfl⟩, ⟨_, rfl⟩, ⟨_, rfl⟩, ⟨_, rfl⟩⟩

theorem test_witness_SequencerNeverSkips :
    { fresh with seqState := 8 }.seqState.toNat ≤ 8 ∧
    (∃ t, move .sequencer { fresh with seqState := 8 } = .next t) ∧
    ∃ t, move .sequencer configured = .next t := ⟨by decide, ⟨_, rfl⟩, ⟨_, rfl⟩⟩

/-- A state in which `faults` already holds a mark and a move adds another. -/
theorem test_witness_GhostStateOnlyGrows :
    { pendingTick 41 0 0 with faults := [.tickOverrun 3] }.faults.Nodup ∧
    (nextOf (move .tickTimer { pendingTick 41 0 0 with faults := [.tickOverrun 3] })).map State.faults =
      some [.tickOverrun 3, .tickOverrun 41] := by decide

/-- One move per mark that adds it. -/
theorem test_witness_MarksHaveTheirCauses :
    (nextOf (move .multiplexer { fresh with sw := 1, hsoscRdy := 1 })).map State.faults =
      some [.flashTimingViolation 1 0] ∧
    (nextOf (move .sequencer { fresh with seqState := 4 })).map State.faults = some [.switchBeforeReady 4] ∧
    (nextOf (move .tickTimer (pendingTick 41 0 0))).map State.faults = some [.tickOverrun 41] ∧
    (nextOf (move .sequencer { fresh with seqState := 10 })).map State.faults = some [.illegalSeqState 10] ∧
    (nextOf (move (.hostRead 0xFF) fresh)).map State.faults = some [.reservedAccess (.offset 0xFF)] := by
  decide

theorem test_witness_ConfigurationStaysDone :
    configured.cfgDone = true ∧ (∃ t, move .tickTimer configured = .next t) ∧
    ∃ t, move .sequencer configured = .next t := ⟨rfl, ⟨_, rfl⟩, ⟨_, rfl⟩⟩

/-- A tick pending while FREQ.REC is still to come (program PG5, step 13). -/
theorem test_witness_SequencerAndTickCommute :
    { configured with seqState := 8, tickPending := 1 }.tickPending = 1 := rfl

/-- In order: at reset, in the middle of the configuration, and when it is complete. -/
theorem test_witness_StepsStayInOrder :
    fresh.InOrder ∧ configured.InOrder ∧
    { fresh with wsReq := 1, wsAct := 1, hsoscOn := 1, seqState := 3 }.InOrder :=
  ⟨fresh_inOrder, configured_inOrder, by constructor <;> decide⟩

/-- The consequences of the order speak of states on both sides of each of their clauses. -/
theorem test_witness_HazardsAreRespected :
    fresh.InOrder ∧ configured.InOrder ∧ configured.sw = 1 ∧ configured.en = 1 ∧ configured.sws = 1 ∧
    configured.cfgDone = true := ⟨fresh_inOrder, configured_inOrder, rfl, rfl, rfl, rfl⟩

theorem test_witness_AwaitedConditionsPersist :
    configured.InOrder ∧ (∃ t, move .tickTimer configured = .next t) ∧
    configured.wsAct.toNat = configured.params.flashWaitCycles ∧ configured.oscillatorReady = true ∧
    configured.clockSwitched = true := ⟨configured_inOrder, ⟨_, rfl⟩, by decide, rfl, rfl⟩

theorem test_witness_DoneMeansComplete : configured.InOrder ∧ configured.cfgDone = true :=
  ⟨configured_inOrder, rfl⟩

theorem test_witness_TraceKeepsTellingCode :
    { configured with trace := traceOfPG1, moves := [.tickTimer] }.TraceTellsCode ∧
    (∃ t, step { configured with trace := traceOfPG1, moves := [.tickTimer] } = .next t) ∧
    { fresh with moves := [.sequencer] }.TraceTellsCode ∧
    ∃ t, step { fresh with moves := [.sequencer] } = .next t :=
  ⟨by unfold State.TraceTellsCode; decide, ⟨_, rfl⟩, rfl, ⟨_, rfl⟩⟩

theorem test_witness_DoneTraceHasThePolls :
    { configured with trace := traceOfPG1 }.params.WellFormed ∧
    { configured with trace := traceOfPG1 }.TraceTellsCode ∧
    { configured with trace := traceOfPG1 }.cfgDone = true :=
  ⟨by decide, by unfold State.TraceTellsCode; decide, rfl⟩

/-- An operation that has been passed, and one that has not. -/
theorem test_witness_EachWriteOnce :
    { configured with trace := traceOfPG1 }.TraceTellsCode ∧ fresh.TraceTellsCode ∧
    access Params.reference .freqRec = .write (freqRecAccess .reference) ∧
    traceOfPG1.countP (Event.isWriteBy (encode .freqRec)) = 1 :=
  ⟨by unfold State.TraceTellsCode; decide, rfl, rfl, by decide⟩

theorem test_witness_NoTickBeforeEnable :
    { fresh with moves := [.sequencer] }.QuietUntilEnabled ∧
    (∃ t, step { fresh with moves := [.sequencer] } = .next t) ∧
    { configured with moves := [.tickTimer] }.QuietUntilEnabled ∧
    ∃ t, step { configured with moves := [.tickTimer] } = .next t :=
  ⟨.inr ⟨rfl, by simp [fresh, State.resetWith]⟩, ⟨_, rfl⟩, .inl rfl, ⟨_, rfl⟩⟩

/-- The counting law, the mirror relation and the account of firings, in a state that services a tick. -/
theorem test_witness_tick_invariants :
    let s : State := { pendingTick 1 0 1 with trace := [.fire, .tgl 1 false 0, .fire], moves := [.toggler] }
    s.CountingLaw ∧ s.Mirrors ∧ s.FiringsServiced ∧ ∃ t, step s = .next t :=
  ⟨⟨by decide, by decide, by decide, by simp⟩, by unfold State.Mirrors; decide, fun _ => by decide, ⟨_, rfl⟩⟩

/-- The mirror relation after a toggle, and the account of firings with an overrun. -/
theorem test_witness_tick_invariants_other_case :
    let s : State := { pendingTick 1000 1 1 with
      trace := [.tgl 1000 true 1], faults := [.tickOverrun 0], moves := [.toggler] }
    s.Mirrors ∧ s.FiringsServiced ∧ ∃ t, step s = .next t :=
  ⟨by unfold State.Mirrors; decide, fun h => absurd (List.mem_cons_self ..) (h 0), ⟨_, rfl⟩⟩

theorem test_witness_SquareWavePeriod : 1000 < 2 ^ 32 ∧ 2000 ≤ 4294967295 ∧ 4294967295 < 2 ^ 32 := by decide

theorem test_witness_WrapShortensHalfPeriod :
    (pendingTick 0xFFFFFED8 1 1).tickCount = 0xFFFFFED8#32 ∧ (295 : Nat) ≤ 295 ∧ (296 : Nat) ≤ 1295 := by decide

/-! ### Runs -/

/-- The states of a run under given moves; a move without a next state changes nothing. -/
def runFrom (s : State) (m : Nat → Move) : Nat → State
  | 0 => s
  | n + 1 => (nextOf (move (m n) (runFrom s m n))).getD (runFrom s m n)

theorem runFrom_succ {s t : State} {m : Nat → Move} {n : Nat} (h : move (m n) (runFrom s m n) = .next t) :
    runFrom s m (n + 1) = t := by
  simp [runFrom, h, nextOf]

/-- A run whose first `N` moves have next states, and which then stays in a set of states that every
later move keeps. -/
theorem isRun_of {p : Params} {level : BitVec 1} {m : Nat → Move} (N : Nat) (S : State → Prop)
    (hp : p.WellFormed) (hm : ∀ n, m n ≠ .rst)
    (hpre : ∀ n, n < N → ∃ t, move (m n) (runFrom (State.resetWith p level) m n) = .next t)
    (hN : S (runFrom (State.resetWith p level) m N))
    (hS : ∀ n s, N ≤ n → S s → ∃ t, move (m n) s = .next t ∧ S t) :
    IsRun p level (runFrom (State.resetWith p level) m) m := by
  have later : ∀ k, S (runFrom (State.resetWith p level) m (N + k)) := by
    intro k
    induction k with
    | zero => exact hN
    | succ k ih =>
      obtain ⟨t, ht, hSt⟩ := hS (N + k) _ (Nat.le_add_right ..) ih
      exact (runFrom_succ ht : runFrom _ m (N + (k + 1)) = t) ▸ hSt
  refine ⟨hp, rfl, hm, fun n => ?_⟩
  have total : ∃ t, move (m n) (runFrom (State.resetWith p level) m n) = .next t := by
    by_cases h : n < N
    · exact hpre n h
    · obtain ⟨k, rfl⟩ := Nat.exists_eq_add_of_le (Nat.le_of_not_lt h)
      obtain ⟨t, ht, _⟩ := hS (N + k) _ (Nat.le_add_right ..) (later k)
      exact ⟨t, ht⟩
  obtain ⟨t, ht⟩ := total
  rw [ht, runFrom_succ ht]

/-- The moves of program PG1, then the six agents in turn. -/
def fairMoves (n : Nat) : Move :=
  if n < 12 then
    [.sequencer, .flashController, .sequencer, .sequencer, .oscillator, .sequencer, .sequencer, .multiplexer,
     .sequencer, .sequencer, .sequencer, .sequencer].getD n .sequencer
  else agents.getD (n % 6) .sequencer

/-- Everything the waits and the environment's steps depend on is as in `h`. -/
structure Like (h s : State) : Prop where
  params : s.params = h.params
  configuration : SameConfiguration h s
  status : SameStatus h s
  code : s.seqState = h.seqState

theorem Like.trans {h s t : State} (a : Like h s) (b : Like s t) : Like h t := by
  obtain ⟨a1, ⟨_, _, _, _, _, _, _, _⟩, ⟨_, _, _⟩, a4⟩ := a
  obtain ⟨b1, ⟨_, _, _, _, _, _, _, _⟩, ⟨_, _, _⟩, b4⟩ := b
  exact ⟨b1.trans a1, by constructor <;> simp only [*], by constructor <;> simp only [*], b4.trans a4⟩

theorem Like.move {h s t : State} {a : Move} (l : Like h s) (hr : h.Runs) (e : agentMove a s = .next t) :
    move a s = .next t := by
  refine move_eq_next.2 ⟨l.params ▸ hr.params, .inr ?_, e⟩
  rw [← hr.fields]
  simp only [State.reservedFields, l.params, l.status.sws, l.configuration.sw, l.configuration.hpre,
    l.configuration.ppre, l.configuration.wsReq, l.configuration.en, l.configuration.period]

theorem configured_move {a : Move} (ha : a ∈ agents) {s : State} (l : Like configured s) :
    ∃ t, move a s = .next t ∧ Like configured t := by
  have still : agentMove a s = .next s → ∃ t, move a s = .next t ∧ Like configured t :=
    fun e => ⟨s, l.move configured_runs e, l⟩
  simp only [agents, List.mem_cons, List.not_mem_nil, or_false] at ha
  rcases ha with rfl | rfl | rfl | rfl | rfl | rfl
  · apply still
    have e : agentMove .sequencer s = .next { s with seqState := 9#4 } :=
      sequencerMove_of_decode (i := .idle) l.code rfl
    have c : s.seqState = 9#4 := l.code
    rw [e, ← c]
  · rcases togglerMove_cases s with ⟨_, e⟩ | ⟨_, e⟩
    · exact ⟨_, l.move configured_runs e, l.trans
        ⟨by simp, by constructor <;> simp, by constructor <;> simp, by simp⟩⟩
    · exact still e
  · apply still
    have : s.flashLatchEnabled = false := by
      simp only [State.flashLatchEnabled, l.params, l.status.wsAct, l.configuration.wsReq]; decide
    simp [agentMove, this]
  · apply still
    have : s.oscReadyEnabled = false := by
      simp only [State.oscReadyEnabled, l.params, l.status.hsoscRdy, l.configuration.hsoscOn]; decide
    simp [agentMove, this]
  · apply still
    have : s.muxSwitchEnabled = false := by
      simp only [State.muxSwitchEnabled, l.params, l.status.sws, l.configuration.sw]; rfl
    simp [agentMove, this]
  · have : s.tickFireEnabled = true := by
      simp only [State.tickFireEnabled, l.configuration.en]; decide
    exact ⟨s.tickFire, l.move configured_runs (by simp [agentMove, this]), l.trans
      ⟨by simp, by constructor <;> simp, by constructor <;> simp, by simp⟩⟩

theorem fairMoves_later {n : Nat} (h : 12 ≤ n) : fairMoves n ∈ agents := by
  have hlt : n % 6 < agents.length := Nat.mod_lt _ (by decide)
  rw [fairMoves, if_neg (by omega), List.getD_eq_getElem _ _ hlt]
  exact List.getElem_mem hlt

theorem fairMoves_agents (n : Nat) : fairMoves n ∈ agents := by
  by_cases h : 12 ≤ n
  · exact fairMoves_later h
  · have : n < 12 := by omega
    interval_cases n <;> decide

theorem fairMoves_fair (r : Nat → State) : WeaklyFair r fairMoves := by
  intro a ha n _
  have key : ∀ j, j < 6 → fairMoves (6 * (n + 2) + j) = agents.getD j .sequencer := by
    intro j hj
    rw [fairMoves, if_neg (by omega), show (6 * (n + 2) + j) % 6 = j by omega]
  simp only [agents, List.mem_cons, List.not_mem_nil, or_false] at ha
  rcases ha with rfl | rfl | rfl | rfl | rfl | rfl
  · exact ⟨_, by omega, key 0 (by decide)⟩
  · exact ⟨_, by omega, key 1 (by decide)⟩
  · exact ⟨_, by omega, key 2 (by decide)⟩
  · exact ⟨_, by omega, key 3 (by decide)⟩
  · exact ⟨_, by omega, key 4 (by decide)⟩
  · exact ⟨_, by omega, key 5 (by decide)⟩

/-- A weakly fair run of the reference instantiation. -/
theorem test_witness_FairRunsComplete :
    IsRun .reference 0 (runFrom fresh fairMoves) fairMoves ∧ WeaklyFair (runFrom fresh fairMoves) fairMoves ∧
    HardwareAnswers .reference := by
  refine ⟨isRun_of 12 (Like configured) test_reference_wellFormed ?_ ?_ ?_ ?_, fairMoves_fair _,
    rfl, rfl, .inl rfl⟩
  · intro n e
    have := fairMoves_agents n
    rw [e] at this
    exact absurd this (by decide)
  · intro n hn
    interval_cases n <;> exact ⟨_, rfl⟩
  · exact ⟨rfl, ⟨rfl, rfl, rfl, rfl, rfl, rfl, rfl, rfl⟩, ⟨rfl, rfl, rfl⟩, rfl⟩
  · intro n s hn hs
    exact configured_move (fairMoves_later hn) hs

/-- Some moves, then the sequencer for ever. -/
def thenSequencer (pre : List Move) (n : Nat) : Move := pre.getD n .sequencer

theorem thenSequencer_later {pre : List Move} {n : Nat} (h : pre.length ≤ n) :
    thenSequencer pre n = .sequencer := by
  rw [thenSequencer, List.getD_eq_default _ _ h]

theorem thenSequencer_ne_rst {pre : List Move} (h : .rst ∉ pre) (n : Nat) : thenSequencer pre n ≠ .rst := by
  by_cases hn : n < pre.length
  · rw [thenSequencer, List.getD_eq_getElem _ _ hn]
    exact fun e => h (e ▸ List.getElem_mem hn)
  · rw [thenSequencer_later (by omega)]
    decide

/-- A wait whose value is not there keeps polling. -/
theorem wait_move {h s : State} {c : BitVec 4} {i : Instr} {d : PollAccess} (l : Like h s) (hr : h.Runs)
    (hc : h.seqState = c) (hd : decode (mkId 0#1 c) = .ok i)
    (he : exec i s = .next (s.pollOp (encode i) d)) (hi : idCode (encode i) = c)
    (hs : d.sees (s.readReg d.reg) = false) : ∃ t, move .sequencer s = .next t ∧ Like h t := by
  refine ⟨_, l.move hr ((sequencerMove_of_decode (l.code.trans hc) hd).trans he), l.trans ?_⟩
  exact ⟨by simp [State.pollOp], by constructor <;> simp [State.pollOp],
    by constructor <;> simp [State.pollOp], by simp [State.pollOp, hs, hi, l.code, hc]⟩

/-- A run with a flash controller that never latches (X5). -/
theorem test_witness_DeadHardwareHangs_flash :
    let p : Params := { Params.reference with flashLatches := false }
    IsRun p 0 (runFrom (State.resetWith p 0) (thenSequencer [])) (thenSequencer []) ∧
    p.flashLatches = false ∧ p.flashWaitCycles ≠ 0 := by
  refine ⟨isRun_of 1 (Like { freshWith { Params.reference with flashLatches := false } with
      wsReq := 1, seqState := 1 }) (by decide) (thenSequencer_ne_rst (by simp)) ?_ ?_ ?_, rfl, by decide⟩
  · intro n hn
    interval_cases n
    exact ⟨_, rfl⟩
  · exact ⟨rfl, ⟨rfl, rfl, rfl, rfl, rfl, rfl, rfl, rfl⟩, ⟨rfl, rfl, rfl⟩, rfl⟩
  · intro n s _ l
    rw [thenSequencer_later (Nat.zero_le _)]
    refine wait_move (i := .fwsWait) l ⟨by decide, by decide⟩ rfl rfl rfl rfl ?_
    simp only [fwsWaitAccess, State.readReg, l.params, l.status.wsAct, l.configuration.wsReq]
    decide

/-- A run with an oscillator that never becomes ready (program PG4). -/
theorem test_witness_DeadHardwareHangs_oscillator :
    let p : Params := { Params.reference with oscStarts := false }
    let m := thenSequencer [.sequencer, .flashController]
    IsRun p 0 (runFrom (State.resetWith p 0) m) m ∧ p.oscStarts = false := by
  refine ⟨isRun_of 4 (Like { freshWith { Params.reference with oscStarts := false } with
      wsReq := 1, wsAct := 1, hsoscOn := 1, seqState := 3 }) (by decide)
      (thenSequencer_ne_rst (by decide)) ?_ ?_ ?_, rfl⟩
  · intro n hn
    interval_cases n <;> exact ⟨_, rfl⟩
  · exact ⟨rfl, ⟨rfl, rfl, rfl, rfl, rfl, rfl, rfl, rfl⟩, ⟨rfl, rfl, rfl⟩, rfl⟩
  · intro n s hn l
    rw [thenSequencer_later (Nat.le_trans (by decide) hn)]
    refine wait_move (i := .oscWait) l ⟨by decide, by decide⟩ rfl rfl rfl rfl ?_
    simp only [oscWaitAccess, State.readReg, l.status.hsoscRdy, l.configuration.hsoscOn]
    decide

/-- A run with a multiplexer that never switches (X6). -/
theorem test_witness_DeadHardwareHangs_multiplexer :
    let p : Params := { Params.reference with muxSwitches := false }
    let m := thenSequencer [.sequencer, .flashController, .sequencer, .sequencer, .oscillator]
    IsRun p 0 (runFrom (State.resetWith p 0) m) m ∧ p.muxSwitches = false := by
  refine ⟨isRun_of 7 (Like { freshWith { Params.reference with muxSwitches := false } with
      wsReq := 1, wsAct := 1, hsoscOn := 1, hsoscRdy := 1, sw := 1, seqState := 5 }) (by decide)
      (thenSequencer_ne_rst (by decide)) ?_ ?_ ?_, rfl⟩
  · intro n hn
    interval_cases n <;> exact ⟨_, rfl⟩
  · exact ⟨rfl, ⟨rfl, rfl, rfl, rfl, rfl, rfl, rfl, rfl⟩, ⟨rfl, rfl, rfl⟩, rfl⟩
  · intro n s hn l
    rw [thenSequencer_later (Nat.le_trans (by decide) hn)]
    refine wait_move (i := .muxWait) l ⟨by decide, by decide⟩ rfl rfl rfl rfl ?_
    simp only [muxWaitAccess, State.readReg, l.status.sws, l.configuration.sw, l.configuration.hpre,
      l.configuration.ppre]
    decide

end Sys2Proof.Tests
end

/-! The state's owners (spec/10_state.md R36) and its reset values (R38). Each update of the state is shown
once to write only what one agent owns, from the lemmas of Laws/State.lean on the fields it leaves alone;
a move is then one of these updates. -/

namespace Sys2Proof.Machine

open Sys2Proof.Config

/-! ### The groups of fields, as equations -/

@[simp] theorem sameSequencerState_iff {s t : State} :
    SameSequencerState s t ↔ t.wsReq = s.wsReq ∧ t.hsoscOn = s.hsoscOn ∧ t.sw = s.sw ∧
      t.hpre = s.hpre ∧ t.ppre = s.ppre ∧ t.en = s.en ∧ t.period = s.period ∧ t.hz = s.hz ∧
      t.seqState = s.seqState ∧ t.rdLatch = s.rdLatch :=
  ⟨fun ⟨h1, h2, h3, h4, h5, h6, h7, h8, h9, h10⟩ => ⟨h1, h2, h3, h4, h5, h6, h7, h8, h9, h10⟩,
   fun ⟨h1, h2, h3, h4, h5, h6, h7, h8, h9, h10⟩ => ⟨h1, h2, h3, h4, h5, h6, h7, h8, h9, h10⟩⟩

@[simp] theorem sameTogglerState_iff {s t : State} :
    SameTogglerState s t ↔ t.tickCount = s.tickCount ∧ t.pinState = s.pinState ∧ t.out = s.out :=
  ⟨fun ⟨h1, h2, h3⟩ => ⟨h1, h2, h3⟩, fun ⟨h1, h2, h3⟩ => ⟨h1, h2, h3⟩⟩

@[simp] theorem sameModelFields_iff {s t : State} :
    SameModelFields s t ↔ t.params = s.params ∧ t.moves = s.moves ∧ t.draws = s.draws :=
  ⟨fun ⟨h1, h2, h3⟩ => ⟨h1, h2, h3⟩, fun ⟨h1, h2, h3⟩ => ⟨h1, h2, h3⟩⟩

/-! ### Ownership of one move (spec/10_state.md R36) -/

/-- From `s` to `t` only what the agent of move `m` owns may have changed; the ghost fields belong to
nobody. -/
structure OnlyOwnerWrote (m : Move) (s t : State) : Prop where
  model : SameModelFields s t
  sequencer : m ≠ .sequencer → SameSequencerState s t
  toggler : m ≠ .toggler → SameTogglerState s t
  wsAct : m ≠ .flashController → t.wsAct = s.wsAct
  hsoscRdy : m ≠ .oscillator → t.hsoscRdy = s.hsoscRdy
  sws : m ≠ .multiplexer → t.sws = s.sws
  pending : m ≠ .tickTimer → m ≠ .toggler → t.tickPending = s.tickPending
  pendingSet : m = .tickTimer → t.tickPending = s.tickPending ∨ t.tickPending = 1#1
  pendingCleared : m = .toggler → t.tickPending = s.tickPending ∨ t.tickPending = 0#1

theorem OnlyOwnerWrote.refl (m : Move) (s : State) : OnlyOwnerWrote m s s := by
  constructor <;> simp

/-- An agent whose step is not enabled writes nothing. -/
theorem OnlyOwnerWrote.ite {m : Move} {s t : State} (enabled : Bool) (h : OnlyOwnerWrote m s t) :
    OnlyOwnerWrote m s (if enabled then t else s) := by
  split
  · exact h
  · exact .refl m s

theorem State.writeOp_onlyOwnerWrote (s : State) (op : BitVec 5) (d : WriteAccess) :
    OnlyOwnerWrote .sequencer s (s.writeOp op d) := by
  constructor <;> simp

theorem State.checkReady_writeOp_onlyOwnerWrote (s : State) (op : BitVec 5) (d : WriteAccess) :
    OnlyOwnerWrote .sequencer s (s.checkReady.writeOp op d) := by
  constructor <;> simp

theorem State.pollOp_onlyOwnerWrote (s : State) (op : BitVec 5) (d : PollAccess) :
    OnlyOwnerWrote .sequencer s (s.pollOp op d) := by
  constructor <;> simp

theorem State.setSeqState_onlyOwnerWrote (s : State) (c : BitVec 4) :
    OnlyOwnerWrote .sequencer s { s with seqState := c } := by
  constructor <;> simp

theorem State.raise_onlyOwnerWrote (m : Move) (s : State) (k : Mark) : OnlyOwnerWrote m s (s.raise k) := by
  constructor <;> simp

@[simp] theorem State.takeTick_tickPending (s : State) : s.takeTick.tickPending = 0#1 := by
  unfold State.takeTick
  split <;> simp [State.toggle_eq, State.countTick]

theorem State.takeTick_onlyOwnerWrote (s : State) : OnlyOwnerWrote .toggler s s.takeTick := by
  constructor <;> simp

theorem State.flashLatch_onlyOwnerWrote (s : State) :
    OnlyOwnerWrote .flashController s s.flashLatch := by
  constructor <;> simp

theorem State.oscReady_onlyOwnerWrote (s : State) : OnlyOwnerWrote .oscillator s s.oscReady := by
  constructor <;> simp

theorem State.muxSwitch_onlyOwnerWrote (s : State) : OnlyOwnerWrote .multiplexer s s.muxSwitch := by
  constructor <;> simp

theorem State.tickFire_onlyOwnerWrote (s : State) : OnlyOwnerWrote .tickTimer s s.tickFire := by
  constructor <;> simp

theorem State.hostRead_onlyOwnerWrote (s : State) (off : BitVec 8) :
    OnlyOwnerWrote (.hostRead off) s (s.hostRead off) := by
  constructor <;> simp

/-- The sequencer writes its own state alone, whichever of its codes it stands in (R36, R66). -/
theorem sequencerMove_onlyOwnerWrote {s t : State} (h : sequencerMove s = .next t) :
    OnlyOwnerWrote .sequencer s t := by
  rcases sequencerMove_cases s with
    ⟨_, e⟩ | ⟨_, e⟩ | ⟨_, e⟩ | ⟨_, e⟩ | ⟨_, e⟩ | ⟨_, e⟩ | ⟨_, e⟩ | ⟨_, e⟩ | ⟨_, e⟩ | ⟨_, e⟩ | ⟨_, e⟩ <;>
    obtain rfl := Host.Outcome.next.inj (e.symm.trans h)
  · exact s.writeOp_onlyOwnerWrote _ _
  · exact s.pollOp_onlyOwnerWrote _ _
  · exact s.writeOp_onlyOwnerWrote _ _
  · exact s.pollOp_onlyOwnerWrote _ _
  · exact s.checkReady_writeOp_onlyOwnerWrote _ _
  · exact s.pollOp_onlyOwnerWrote _ _
  · exact s.writeOp_onlyOwnerWrote _ _
  · exact s.writeOp_onlyOwnerWrote _ _
  · exact s.writeOp_onlyOwnerWrote _ _
  · exact s.setSeqState_onlyOwnerWrote _
  · exact s.raise_onlyOwnerWrote _ _

/-- The toggler writes its own state alone and leaves no tick pending that it serviced (R36, R108). -/
theorem togglerMove_onlyOwnerWrote {s t : State} (h : togglerMove s = .next t) :
    OnlyOwnerWrote .toggler s t := by
  rcases togglerMove_cases s with ⟨_, e⟩ | ⟨_, e⟩ <;>
    obtain rfl := Host.Outcome.next.inj (e.symm.trans h)
  · exact s.takeTick_onlyOwnerWrote
  · exact .refl _ s

/-- No agent writes what another owns (R36); only `rst` writes everything. -/
theorem agentMove_onlyOwnerWrote {m : Move} {s t : State} (hm : m ≠ .rst)
    (h : agentMove m s = .next t) : OnlyOwnerWrote m s t := by
  cases m with
  | sequencer => exact sequencerMove_onlyOwnerWrote h
  | toggler => exact togglerMove_onlyOwnerWrote h
  | flashController => exact Host.Outcome.next.inj h ▸ s.flashLatch_onlyOwnerWrote.ite _
  | oscillator => exact Host.Outcome.next.inj h ▸ s.oscReady_onlyOwnerWrote.ite _
  | multiplexer => exact Host.Outcome.next.inj h ▸ s.muxSwitch_onlyOwnerWrote.ite _
  | tickTimer => exact Host.Outcome.next.inj h ▸ s.tickFire_onlyOwnerWrote.ite _
  | hostRead off => exact Host.Outcome.next.inj h ▸ s.hostRead_onlyOwnerWrote off
  | rst => exact absurd rfl hm

/-- Settles O38: a move with a next state is its agent's step, and each agent's step writes only what
that agent owns. -/
theorem onlyOwnersWrite : Obligations.OnlyOwnersWrite := by
  intro m s t hm h
  obtain ⟨_, _, hstep⟩ := move_eq_next.mp h
  have own := agentMove_onlyOwnerWrote hm hstep
  exact ⟨own.model, own.sequencer, own.toggler, own.wsAct, own.hsoscRdy, own.sws, own.pending,
    own.pendingSet, own.pendingCleared⟩

/-! ### The reset state (spec/10_state.md R38) -/

/-- `PIN_DATA` reads the output latch, zero-extended (R26, R44). -/
theorem State.readReg_pinData (s : State) : s.readReg .pinData = s.out.setWidth 32 :=
  BitVec.setWidth_eq_append (by decide) |>.symm

/-- Every register reads 0 after reset but `CORE_FREQ` and `PIN_DATA`. -/
theorem State.resetWith_readReg_eq_zero (p : Params) (level : BitVec 1) {r : Reg}
    (hfreq : r ≠ .coreFreq) (hdata : r ≠ .pinData) : (State.resetWith p level).readReg r = 0 := by
  cases r with
  | coreFreq => exact absurd rfl hfreq
  | pinData => exact absurd rfl hdata
  | _ => simp only [State.readReg, State.resetWith]; decide

/-- Settles O6: `CORE_FREQ` and `PIN_DATA` read what reset puts there, every other register reads 0. -/
theorem resetState : Obligations.ResetState := by
  intro p level s
  have zero {r : Reg} : r ≠ .coreFreq → r ≠ .pinData → s.readReg r = 0 :=
    State.resetWith_readReg_eq_zero p level
  exact ⟨zero nofun nofun, zero nofun nofun, zero nofun nofun, zero nofun nofun, zero nofun nofun,
    rfl, zero nofun nofun, s.readReg_pinData, rfl, rfl, rfl, rfl, rfl, rfl, rfl⟩

end Sys2Proof.Machine

/-! The register map (spec/20_memory.md R42 to R48): a register word is its fields at their positions, a
write changes the fields its writer owns under the mask, `PIN_BSR` acts on the output latch, and the byte
view is little-endian. Each fact about a bit of a register is shown once per field; the statements follow
because a bit either is reserved or belongs to exactly one field. -/

namespace Sys2Proof.Machine

open Sys2Proof.Config

/-! ### Which field a bit belongs to -/

theorem RegField.mem_all (f : RegField) : f ∈ RegField.all := by
  cases f <;> decide

theorem RegField.ranges_disjoint : ∀ f ∈ RegField.all, ∀ g ∈ RegField.all, f.reg = g.reg →
    f = g ∨ f.lo + f.width ≤ g.lo ∨ g.lo + g.width ≤ f.lo := by
  decide

theorem RegField.covers_iff {f : RegField} {r : Reg} {b : Nat} :
    f.covers r b = true ↔ f.reg = r ∧ f.lo ≤ b ∧ b < f.lo + f.width := by
  simp [RegField.covers]

/-- A bit belongs to one field at most (R48). -/
theorem RegField.covers_unique {f g : RegField} {r : Reg} {b : Nat} (hf : f.covers r b = true)
    (hg : g.covers r b = true) : f = g := by
  obtain ⟨hfr, hf⟩ := covers_iff.mp hf
  obtain ⟨hgr, hg⟩ := covers_iff.mp hg
  rcases ranges_disjoint f f.mem_all g g.mem_all (hfr.trans hgr.symm) with h | h | h
  · exact h
  · omega
  · omega

theorem reservedBit_iff {r : Reg} {b : Nat} :
    reservedBit r b = true ↔ ∀ f : RegField, f.covers r b = false := by
  simp [reservedBit, RegField.mem_all]

theorem reservedBit_or_covers (r : Reg) (b : Nat) :
    reservedBit r b = true ∨ ∃ f : RegField, f.covers r b = true := by
  by_cases h : ∃ f : RegField, f.covers r b = true
  · exact .inr h
  · exact .inl (reservedBit_iff.mpr (by simpa using h))

theorem writableBit_of_reserved {w : RegWriter} {r : Reg} {b : Nat} (h : reservedBit r b = true) :
    writableBit w r b = false := by
  simp [writableBit, reservedBit_iff.mp h]

theorem writableBit_iff_of_covers {w : RegWriter} {f : RegField} {r : Reg} {b : Nat}
    (h : f.covers r b = true) : writableBit w r b = true ↔ f.writer = some w := by
  simp only [writableBit, List.any_eq_true, Bool.and_eq_true, decide_eq_true_eq]
  exact ⟨fun ⟨g, _, hg, hw⟩ => RegField.covers_unique h hg ▸ hw, fun hw => ⟨f, f.mem_all, h, hw⟩⟩

/-! ### A register word is its fields (R44, R48) -/

theorem State.getLsbD_readReg_of_covers (s : State) {f : RegField} {r : Reg} {b : Nat}
    (h : f.covers r b = true) : (s.readReg r).getLsbD b = (s.fieldWord f).getLsbD (b - f.lo) := by
  obtain ⟨rfl, hb⟩ := RegField.covers_iff.mp h
  cases f <;> simp only [RegField.lo, RegField.width] at hb <;>
    simp only [State.readReg, State.fieldWord, RegField.reg, RegField.lo, BitVec.getLsbD_append,
      BitVec.getLsbD_setWidth] <;> grind

theorem State.getLsbD_readReg_of_reserved (s : State) {r : Reg} {b : Nat}
    (h : reservedBit r b = true) : (s.readReg r).getLsbD b = false := by
  cases r <;>
    simp [reservedBit, RegField.all, RegField.covers, RegField.reg, RegField.lo, RegField.width] at h <;>
    simp only [State.readReg, BitVec.getLsbD_append, BitVec.getLsbD_zero] <;> grind

/-! ### No operation masks a reserved bit (R48, R60) -/

/-- The mask of a field has the bits of that field (R59). -/
theorem RegField.getLsbD_mask (f : RegField) {b : Nat} (hb : b < 32) :
    f.mask.getLsbD b = f.covers f.reg b := by
  revert b
  cases f <;> decide

theorem RegField.getLsbD_mask_of_reserved {f : RegField} {b : Nat} (hb : b < 32)
    (h : reservedBit f.reg b = true) : f.mask.getLsbD b = false := by
  rw [f.getLsbD_mask hb, reservedBit_iff.mp h]

/-- The mask of every write descriptor is the range of one field of its register, but for MUX.SEL, which
writes three fields of `CLK_CFG` (R60). -/
theorem access_write_mask {p : Params} {i : Instr} {d : WriteAccess} (h : access p i = .write d) :
    (∃ f : RegField, f.reg = d.reg ∧ d.wmask = f.mask) ∨ d = muxSelAccess := by
  cases i with
  | fwsSet => cases h; exact .inl ⟨.wsReq, rfl, rfl⟩
  | oscOn => cases h; exact .inl ⟨.hsoscOn, rfl, rfl⟩
  | muxSel => cases h; exact .inr rfl
  | tickLoad => cases h; exact .inl ⟨.period, rfl, rfl⟩
  | tickEn => cases h; exact .inl ⟨.en, rfl, rfl⟩
  | freqRec => cases h; exact .inl ⟨.hz, rfl, rfl⟩
  | fwsWait | oscWait | muxWait | idle | tglTick => cases h

theorem access_write_mask_of_reserved {p : Params} {i : Instr} {d : WriteAccess} {b : Nat} (hb : b < 32)
    (h : access p i = .write d) (hres : reservedBit d.reg b = true) : d.wmask.getLsbD b = false := by
  rcases access_write_mask h with ⟨f, hreg, hmask⟩ | rfl
  · rw [hmask, f.getLsbD_mask_of_reserved hb (hreg ▸ hres)]
  · simp only [muxSelAccess, BitVec.getLsbD_or, Bool.or_eq_false_iff]
    exact ⟨⟨RegField.getLsbD_mask_of_reserved hb hres, RegField.getLsbD_mask_of_reserved hb hres⟩,
      RegField.getLsbD_mask_of_reserved hb hres⟩

theorem tglTickAccess_mask_of_reserved (level : BitVec 1) {b : Nat} (hb : b < 32)
    (hres : reservedBit .pinBsr b = true) : (tglTickAccess level).wmask.getLsbD b = false := by
  simp only [tglTickAccess, BitVec.getLsbD_or, Bool.or_eq_false_iff]
  exact ⟨RegField.getLsbD_mask_of_reserved hb hres, RegField.getLsbD_mask_of_reserved hb hres⟩

/-- Settles O8: a bit is the bit of the field that covers it; a reserved bit is 0 in every state, so also
in the one a write leaves, and the masks of the operations are made of fields. -/
theorem registerWordIsItsFields : Obligations.RegisterWordIsItsFields := by
  intro s r b hb
  refine ⟨fun f => s.getLsbD_readReg_of_covers, fun hres => ⟨s.getLsbD_readReg_of_reserved hres, ?_⟩,
    fun hres => ⟨?_, ?_⟩⟩
  · exact fun w off wmask data => (s.regWrite w off wmask data).getLsbD_readReg_of_reserved hres
  · rintro i d hd rfl
    exact access_write_mask_of_reserved hb hd hres
  · rintro level rfl
    exact tglTickAccess_mask_of_reserved level hb hres

/-! ### A write by field (R36, R45) -/

@[simp] theorem State.regWrite_offset (s : State) (w : RegWriter) (r : Reg) (m d : Word) :
    s.regWrite w r.offset m d = s.writeReg w r m d := by
  simp [State.regWrite]

theorem State.writeReg_toggler_of_ne (s : State) {r : Reg} (m d : Word) (hr : r ≠ .pinBsr) :
    s.writeReg .toggler r m d = s := by
  cases r with
  | pinBsr => exact absurd rfl hr
  | _ => rfl

theorem RegField.reg_of_toggler {f : RegField} (h : f.writer = some .toggler) : f.reg = .pinBsr := by
  cases f with
  | bs | br => rfl
  | _ => cases h

theorem State.writeReg_sequencer_wsReq (s : State) (r : Reg) (m d : Word) :
    (s.writeReg .sequencer r m d).wsReq =
      if r = .flashTiming then merge s.wsReq (m.extractLsb' 0 3) (d.extractLsb' 0 3) else s.wsReq := by
  cases r <;> rfl

theorem State.writeReg_sequencer_hsoscOn (s : State) (r : Reg) (m d : Word) :
    (s.writeReg .sequencer r m d).hsoscOn =
      if r = .oscCtrl then merge s.hsoscOn (m.extractLsb' 0 1) (d.extractLsb' 0 1) else s.hsoscOn := by
  cases r <;> rfl

theorem State.writeReg_sequencer_sw (s : State) (r : Reg) (m d : Word) :
    (s.writeReg .sequencer r m d).sw =
      if r = .clkCfg then merge s.sw (m.extractLsb' 0 2) (d.extractLsb' 0 2) else s.sw := by
  cases r <;> rfl

theorem State.writeReg_sequencer_hpre (s : State) (r : Reg) (m d : Word) :
    (s.writeReg .sequencer r m d).hpre =
      if r = .clkCfg then merge s.hpre (m.extractLsb' 4 4) (d.extractLsb' 4 4) else s.hpre := by
  cases r <;> rfl

theorem State.writeReg_sequencer_ppre (s : State) (r : Reg) (m d : Word) :
    (s.writeReg .sequencer r m d).ppre =
      if r = .clkCfg then merge s.ppre (m.extractLsb' 8 3) (d.extractLsb' 8 3) else s.ppre := by
  cases r <;> rfl

theorem State.writeReg_sequencer_en (s : State) (r : Reg) (m d : Word) :
    (s.writeReg .sequencer r m d).en =
      if r = .tickCtrl then merge s.en (m.extractLsb' 0 1) (d.extractLsb' 0 1) else s.en := by
  cases r <;> rfl

theorem State.writeReg_sequencer_period (s : State) (r : Reg) (m d : Word) :
    (s.writeReg .sequencer r m d).period =
      if r = .tickPeriod then merge s.period (m.extractLsb' 0 24) (d.extractLsb' 0 24) else s.period := by
  cases r <;> rfl

theorem State.writeReg_sequencer_hz (s : State) (r : Reg) (m d : Word) :
    (s.writeReg .sequencer r m d).hz = if r = .coreFreq then merge s.hz m d else s.hz := by
  cases r <;> rfl

/-- The masked write of a field reads its mask and its data at the field's position (R45). -/
theorem getLsbD_merge_extractLsb' {n : Nat} (old : BitVec n) (m d : Word) (lo : Nat) {i : Nat}
    (hi : i < n) : (merge old (m.extractLsb' lo n) (d.extractLsb' lo n)).getLsbD i =
      if m.getLsbD (lo + i) then d.getLsbD (lo + i) else old.getLsbD i := by
  simp only [getLsbD_merge, BitVec.getLsbD_extractLsb', hi, decide_true, Bool.true_and]

/-- A masked bit of a field the sequencer owns comes from the data word; every other bit of a field is
kept (R45). -/
theorem State.getLsbD_fieldWord_writeReg_sequencer (s : State) (r : Reg) (m d : Word) (f : RegField)
    {i : Nat} (hi : i < f.width) :
    ((s.writeReg .sequencer r m d).fieldWord f).getLsbD i =
      if f.reg = r ∧ m.getLsbD (f.lo + i) = true ∧ f.writer = some .sequencer then d.getLsbD (f.lo + i)
      else (s.fieldWord f).getLsbD i := by
  cases f with
  | wsAct | hsoscRdy | sws | out | bs | br => simp [State.fieldWord, RegField.writer]
  | hz =>
    simp only [State.fieldWord, RegField.reg, RegField.lo, RegField.writer, writeReg_sequencer_hz]
    grind [getLsbD_merge]
  | wsReq | hsoscOn | sw | hpre | ppre | en | period =>
    simp only [RegField.width] at hi
    simp only [State.fieldWord, RegField.reg, RegField.lo, RegField.writer, BitVec.getLsbD_setWidth,
      writeReg_sequencer_wsReq, writeReg_sequencer_hsoscOn, writeReg_sequencer_sw,
      writeReg_sequencer_hpre, writeReg_sequencer_ppre, writeReg_sequencer_en,
      writeReg_sequencer_period]
    grind [getLsbD_merge_extractLsb']

/-- A write to a register but `PIN_BSR`, field by field, for either writer (R45). -/
theorem State.getLsbD_fieldWord_writeReg (s : State) (w : RegWriter) {r : Reg} (hr : r ≠ .pinBsr)
    (m d : Word) (f : RegField) {i : Nat} (hi : i < f.width) :
    ((s.writeReg w r m d).fieldWord f).getLsbD i =
      if f.reg = r ∧ m.getLsbD (f.lo + i) = true ∧ f.writer = some w then d.getLsbD (f.lo + i)
      else (s.fieldWord f).getLsbD i := by
  cases w with
  | sequencer => exact s.getLsbD_fieldWord_writeReg_sequencer r m d f hi
  | toggler =>
    rw [s.writeReg_toggler_of_ne m d hr, if_neg]
    rintro ⟨rfl, _, hw⟩
    exact hr (RegField.reg_of_toggler hw)

/-- A write to a register but `PIN_BSR`, bit by bit (R45). -/
theorem State.getLsbD_readReg_writeReg (s : State) (w : RegWriter) {r : Reg} (hr : r ≠ .pinBsr)
    (q : Reg) (m d : Word) (b : Nat) :
    ((s.writeReg w r m d).readReg q).getLsbD b =
      if q = r ∧ m.getLsbD b = true ∧ writableBit w r b = true then d.getLsbD b
      else (s.readReg q).getLsbD b := by
  rcases reservedBit_or_covers q b with hres | ⟨f, hf⟩
  · rw [State.getLsbD_readReg_of_reserved _ hres, State.getLsbD_readReg_of_reserved _ hres, if_neg]
    rintro ⟨rfl, _, hw⟩
    simp [writableBit_of_reserved hres] at hw
  · obtain ⟨rfl, hlo, hhi⟩ := RegField.covers_iff.mp hf
    have hb : f.lo + (b - f.lo) = b := by omega
    rw [State.getLsbD_readReg_of_covers _ hf, State.getLsbD_readReg_of_covers _ hf,
      s.getLsbD_fieldWord_writeReg w hr m d f (by omega), hb]
    refine if_congr (and_congr_right fun e => and_congr_right fun _ => ?_) rfl rfl
    exact e ▸ (writableBit_iff_of_covers hf).symm

/-- A write to `PIN_BSR` acts on no register but `PIN_DATA` (R46). -/
theorem State.readReg_writePinBsr (s : State) {q : Reg} (m d : Word) (hq : q ≠ .pinData) :
    (s.writePinBsr m d).readReg q = s.readReg q := by
  cases q with
  | pinData => exact absurd rfl hq
  | _ => simp [State.readReg]

/-- Settles O9: the registers bit by bit from the fields, the rest from what each writer's write leaves
alone. -/
theorem writeChangesMaskedOwnedBits : Obligations.WriteChangesMaskedOwnedBits := by
  refine ⟨fun s m d => s.regWrite_offset .sequencer .pinBsr m d, fun s w q m d hq => ?_,
    fun s w r q m d b _ hr => ?_⟩
  · rw [State.regWrite_offset]
    cases w with
    | sequencer => rfl
    | toggler => exact s.readReg_writePinBsr m d hq
  · rw [State.regWrite_offset]
    refine ⟨s.getLsbD_readReg_writeReg w hr q m d b, ?_⟩
    cases w with
    | sequencer => exact ⟨⟨by simp, by simp, by simp⟩, by simp⟩
    | toggler =>
      rw [s.writeReg_toggler_of_ne m d hr]
      exact ⟨⟨rfl, rfl, rfl⟩, rfl, rfl, ⟨rfl, rfl, rfl⟩, rfl, rfl, rfl⟩

/-! ### A write to `PIN_BSR` (R46) -/

theorem State.regWrite_toggler_pinBsr (s : State) (m d : Word) :
    s.regWrite .toggler 0x18#8 m d = s.writePinBsr m d :=
  s.regWrite_offset .toggler .pinBsr m d

/-- A mark already there is not added again (R33). -/
theorem State.raise_raise (s : State) (k : Mark) : (s.raise k).raise k = s.raise k := by
  have hk : k ∈ (s.raise k).faults := (s.mem_raise_faults k k).mpr (.inr rfl)
  rw [State.raise.eq_def (s.raise k), if_pos hk]

section
variable {m d : Word}

theorem State.writePinBsr_of_set (s : State) (hset : (m.getLsbD 0 && d.getLsbD 0) = true)
    (hclear : (m.getLsbD 1 && d.getLsbD 1) = false) : s.writePinBsr m d = { s with out := 1#1 } := by
  rw [State.writePinBsr, hset, hclear]

theorem State.writePinBsr_of_clear (s : State) (hset : (m.getLsbD 0 && d.getLsbD 0) = false)
    (hclear : (m.getLsbD 1 && d.getLsbD 1) = true) : s.writePinBsr m d = { s with out := 0#1 } := by
  rw [State.writePinBsr, hset, hclear]

theorem State.writePinBsr_of_neither (s : State) (hset : (m.getLsbD 0 && d.getLsbD 0) = false)
    (hclear : (m.getLsbD 1 && d.getLsbD 1) = false) : s.writePinBsr m d = s := by
  rw [State.writePinBsr, hset, hclear]

theorem State.writePinBsr_of_both (s : State) (hset : (m.getLsbD 0 && d.getLsbD 0) = true)
    (hclear : (m.getLsbD 1 && d.getLsbD 1) = true) :
    s.writePinBsr m d = s.raise (.reservedAccess (.offset 0x18#8)) := by
  rw [State.writePinBsr, hset, hclear]

end

/-- The new level does not depend on the old one, so a repeated write changes nothing more (R46). -/
theorem State.writePinBsr_writePinBsr (s : State) (m d : Word) :
    (s.writePinBsr m d).writePinBsr m d = s.writePinBsr m d := by
  cases hset : m.getLsbD 0 && d.getLsbD 0 <;> cases hclear : m.getLsbD 1 && d.getLsbD 1
  · simp only [State.writePinBsr_of_neither _ hset hclear]
  · simp only [State.writePinBsr_of_clear _ hset hclear]
  · simp only [State.writePinBsr_of_set _ hset hclear]
  · simp only [State.writePinBsr_of_both _ hset hclear, State.raise_raise]

/-- Settles O10: the four cases of the two requests, and the repeated write. -/
theorem pinBsrSetsOrClears : Obligations.PinBsrSetsOrClears := by
  intro s m d
  simp only [State.regWrite_toggler_pinBsr]
  refine ⟨s.writePinBsr_of_set, s.writePinBsr_of_clear, s.writePinBsr_of_neither,
    fun hset hclear => ?_, s.writePinBsr_writePinBsr m d⟩
  rw [s.writePinBsr_of_both hset hclear]
  exact ⟨rfl, s.mem_raise_faults _⟩

/-! ### The byte view (R43) -/

/-- The registers stand at multiples of 4, so the low two bits of an offset are the byte within the
register, and the others the register's offset (R40, R43). -/
theorem Reg.offset_add_byte (r : Reg) {i : Nat} (hi : i < 4) :
    (r.offset + BitVec.ofNat 8 i) &&& 0xFC#8 = r.offset ∧
      ((r.offset + BitVec.ofNat 8 i) &&& 0x03#8).toNat = i := by
  revert i
  cases r <;> decide

theorem State.readByte_offset (s : State) (r : Reg) {i : Nat} (hi : i < 4) :
    s.readByte (r.offset + BitVec.ofNat 8 i) = some (byteOf (s.readReg r) i) := by
  obtain ⟨hreg, hbyte⟩ := r.offset_add_byte hi
  simp [State.readByte, State.regRead, hreg, hbyte]

theorem getLsbD_byteOf (v : Word) (i : Nat) {j : Nat} (hj : j < 8) :
    (byteOf v i).getLsbD j = v.getLsbD (8 * i + j) := by
  simp [byteOf, hj]

/-- Settles O13: the byte at `off + i` is byte `i` of the word. -/
theorem bytesAreLittleEndian : Obligations.BytesAreLittleEndian :=
  fun s r i hi => ⟨byteOf (s.readReg r) i, s.readByte_offset r hi, fun _ => getLsbD_byteOf _ i⟩

end Sys2Proof.Machine

/-! The access descriptors (spec/30_encoding.md R56 to R60): a value that fits a field has no bit outside
the field's range, so a descriptor made of one field and such a value is well formed. -/

namespace Sys2Proof.Machine

open Sys2Proof.Config

/-- A field value below 2^width stays within the bit range of its field (R59). -/
theorem RegField.covers_of_getLsbD_word {f : RegField} {v b : Nat} (hv : v < 2 ^ f.width)
    (h : (f.word v).getLsbD b = true) : f.covers f.reg b = true := by
  simp only [RegField.word, BitVec.getLsbD_shiftLeft, BitVec.getLsbD_ofNat, Bool.and_eq_true,
    Bool.not_eq_true', decide_eq_true_eq, decide_eq_false_iff_not] at h
  obtain ⟨⟨_, hlo⟩, _, hbit⟩ := h
  have hwidth : b - f.lo < f.width :=
    (Nat.pow_lt_pow_iff_right (by decide)).mp ((Nat.ge_two_pow_of_testBit hbit).trans_lt hv)
  exact RegField.covers_iff.mpr ⟨rfl, by omega, by omega⟩

theorem RegField.getLsbD_mask_of_word {f : RegField} {v b : Nat} (hv : v < 2 ^ f.width) (hb : b < 32)
    (h : (f.word v).getLsbD b = true) : f.mask.getLsbD b = true := by
  rw [f.getLsbD_mask hb, covers_of_getLsbD_word hv h]

/-- A write of a fitting value to one field of its owner is well formed (R48, R59, R60). -/
theorem WriteAccess.wellFormed_of_field {w : RegWriter} {f : RegField} {v : Nat}
    (hw : f.writer = some w) (hv : v < 2 ^ f.width) :
    WriteAccess.wellFormed w ⟨f.reg, f.mask, f.word v⟩ = true := by
  simp only [WriteAccess.wellFormed, List.all_eq_true, List.mem_range, Bool.and_eq_true, Bool.or_eq_true,
    Bool.not_eq_true', ← Bool.not_eq_true, ← imp_iff_not_or]
  intro b hb
  refine ⟨fun hmask => ?_, RegField.getLsbD_mask_of_word hv hb⟩
  rw [f.getLsbD_mask hb] at hmask
  exact (writableBit_iff_of_covers hmask).mpr hw

/-- A poll of one field for a fitting value is well formed (R59). -/
theorem PollAccess.wellFormed_of_field {f : RegField} {v : Nat} (hv : v < 2 ^ f.width) :
    PollAccess.wellFormed ⟨f.reg, f.mask, f.word v⟩ = true := by
  have hinside : f.word v &&& f.mask = f.word v := by
    ext b hb
    simpa [← BitVec.getLsbD_eq_getElem] using RegField.getLsbD_mask_of_word hv hb
  simp only [PollAccess.wellFormed, hinside, beq_self_eq_true, Bool.and_true, List.any_eq_true,
    decide_eq_true_eq]
  exact ⟨f, f.mem_all, rfl, rfl⟩

/-- With well-formed parameters the descriptor of every operation is well formed: it is one field with a
value that fits, or it is constant (R60). -/
theorem access_wellFormed {p : Params} (h : p.WellFormed) (i : Instr) : (access p i).wellFormed = true := by
  have hws : p.flashWaitCycles < 2 ^ 3 := Nat.lt_succ_of_le (Params.flashWaitCycles_le h)
  cases i with
  | fwsSet => exact WriteAccess.wellFormed_of_field (f := .wsReq) rfl hws
  | fwsWait => exact PollAccess.wellFormed_of_field (f := .wsAct) hws
  | tickLoad => exact WriteAccess.wellFormed_of_field (f := .period) rfl (Params.periodRange h).2
  | freqRec => exact WriteAccess.wellFormed_of_field (f := .hz) rfl (Params.targetRange h).2
  | oscOn => exact WriteAccess.wellFormed_of_field (f := .hsoscOn) rfl (by decide)
  | tickEn => exact WriteAccess.wellFormed_of_field (f := .en) rfl (by decide)
  | oscWait => exact PollAccess.wellFormed_of_field (f := .hsoscRdy) (by decide)
  | muxWait => exact PollAccess.wellFormed_of_field (f := .sws) (by decide)
  | muxSel => exact (by decide : WriteAccess.wellFormed .sequencer muxSelAccess = true)
  | tglTick => exact (by decide : Access.wellFormed .handler = true)
  | idle => rfl

/-- Settles O17: the rows of the table are the equations of the descriptors; each value the operations
write is bounded by the parameter check of its field (R12). -/
theorem descriptorsFitTheirFields : Obligations.DescriptorsFitTheirFields := by
  refine ⟨fun p => ?_, by decide, by decide, by decide, fun p h => ?_⟩
  · exact ⟨congrArg Access.write (fwsSetAccess_eq p), congrArg Access.poll (fwsWaitAccess_eq p),
      congrArg Access.write oscOnAccess_eq, congrArg Access.poll oscWaitAccess_eq,
      congrArg Access.write muxSelAccess_eq, congrArg Access.poll muxWaitAccess_eq,
      congrArg Access.write (tickLoadAccess_eq p), congrArg Access.write tickEnAccess_eq,
      congrArg Access.write (freqRecAccess_eq p), rfl, rfl⟩
  · exact ⟨access_wellFormed h, Nat.lt_succ_of_le (Params.flashWaitCycles_le h), (Params.periodRange h).2,
      (Params.targetRange h).2⟩

end Sys2Proof.Machine

/-! The sequencer's two templates and its progress (spec/40_status_wait.md R66 to R68, R73). Each operation
of format W is the write template and each of format P the status-wait template, which is said once; what
an operation leaves alone and where it takes `seq_state` then follows from the template. -/

namespace Sys2Proof.Machine

open Sys2Proof.Config

/-! ### Every operation runs its template (R56, R67, R68) -/

/-- An operation of format W is the write template; MUX.SEL alone makes its check first (R67, R85). -/
theorem exec_of_access_write {s : State} {i : Instr} {d : WriteAccess}
    (h : access s.params i = .write d) :
    exec i s = .next ((if i = .muxSel then s.checkReady else s).writeOp (encode i) d) := by
  cases i with
  | fwsSet | oscOn | muxSel | tickLoad | tickEn | freqRec => cases h; rfl
  | fwsWait | oscWait | muxWait | idle | tglTick => cases h

theorem exec_of_access_poll {s : State} {i : Instr} {d : PollAccess}
    (h : access s.params i = .poll d) : exec i s = .next (s.pollOp (encode i) d) := by
  cases i with
  | fwsWait | oscWait | muxWait => cases h; rfl
  | fwsSet | oscOn | muxSel | tickLoad | tickEn | freqRec | idle | tglTick => cases h

/-! ### The write template (R67) -/

@[simp] theorem State.readReg_raise (s : State) (k : Mark) (q : Reg) :
    (s.raise k).readReg q = s.readReg q := by
  cases q <;> rfl

/-- The sequencer's write and a mark do not see each other (R33: no operation reads `faults`). -/
theorem State.writeReg_sequencer_raise (s : State) (k : Mark) (r : Reg) (m d : Word) :
    (s.raise k).writeReg .sequencer r m d = (s.writeReg .sequencer r m d).raise k := by
  cases r <;> rfl

@[simp] theorem State.readReg_writeReg_checkReady (s : State) (r q : Reg) (m d : Word) :
    (s.checkReady.writeReg .sequencer r m d).readReg q = (s.writeReg .sequencer r m d).readReg q := by
  unfold State.checkReady
  split
  · rw [s.writeReg_sequencer_raise, State.readReg_raise]
  · rfl

@[simp] theorem State.readReg_writeOp (s : State) (op : BitVec 5) (d : WriteAccess) (q : Reg) :
    (s.writeOp op d).readReg q = (s.writeReg .sequencer d.reg d.wmask d.data).readReg q := by
  cases q <;> rfl

@[simp] theorem sameStatus_iff {s t : State} :
    SameStatus s t ↔ t.wsAct = s.wsAct ∧ t.hsoscRdy = s.hsoscRdy ∧ t.sws = s.sws :=
  ⟨fun ⟨h1, h2, h3⟩ => ⟨h1, h2, h3⟩, fun ⟨h1, h2, h3⟩ => ⟨h1, h2, h3⟩⟩

/-- Settles O19: the operation is the write template, and the check in front of MUX.SEL adds to `faults`
alone. -/
theorem writeTemplate : Obligations.WriteTemplate := by
  intro s i d _ hd
  refine ⟨_, exec_of_access_write hd, ?_⟩
  by_cases hi : i = .muxSel
  · rw [if_pos hi]
    simp [hi]
  · rw [if_neg hi]
    simp

/-! ### The status-wait template (R68) -/

/-- The template as one record update, the awaited value written out. -/
theorem State.pollOp_eq (s : State) (op : BitVec 5) (d : PollAccess) :
    s.pollOp op d = { s with
      rdLatch := some (s.readReg d.reg)
      trace := s.trace ++ [.read op d.reg.offset (s.readReg d.reg)]
      seqState := if s.readReg d.reg &&& d.rmask = d.expect then idCode op + 1 else idCode op } := by
  simp only [State.pollOp, State.emit, PollAccess.sees, beq_iff_eq]

/-- Settles O20: the operation is the status-wait template. -/
theorem pollTemplate : Obligations.PollTemplate := by
  intro s i d _ hd
  rw [exec_of_access_poll hd, s.pollOp_eq]

/-! ### The sequencer's codes (R27, R66) -/

theorem decode_encode (i : Instr) : decode (encode i) = .ok i := by
  cases i <;> rfl

/-- The sequencer runs the operation whose id `seq_state` gives (R58). -/
theorem sequencerMove_of_encode {s : State} {i : Instr} (h : encode i = mkId 0#1 s.seqState) :
    sequencerMove s = exec i s :=
  sequencerMove_of_decode rfl (h ▸ decode_encode i)

theorem idCode_mkId : ∀ c : BitVec 4, idCode (mkId 0#1 c) = c := by
  decide

/-- The codes 0 to 8 are those of the configuration's operations (R57, R65). -/
theorem exists_configure_of_code_le : ∀ c : BitVec 4, c.toNat ≤ 8 →
    ∃ i ∈ Instr.configure, encode i = mkId 0#1 c := by
  decide

/-- The configuration is made of operations of the formats W and P (R60, R65). -/
theorem access_of_configure (p : Params) {i : Instr} (hi : i ∈ Instr.configure) :
    (∃ d, access p i = .write d) ∨ ∃ d, access p i = .poll d := by
  cases i with
  | fwsSet | oscOn | muxSel | tickLoad | tickEn | freqRec => exact .inl ⟨_, rfl⟩
  | fwsWait | oscWait | muxWait => exact .inr ⟨_, rfl⟩
  | idle | tglTick => exact absurd hi (by decide)

/-- An operation of the configuration completes, in its own code or in the next (R66 to R68). -/
theorem exec_configure_code (s : State) {i : Instr} (hi : i ∈ Instr.configure) :
    ∃ t, exec i s = .next t ∧
      (t.seqState = idCode (encode i) ∨ t.seqState = idCode (encode i) + 1) := by
  rcases access_of_configure s.params hi with ⟨d, hd⟩ | ⟨d, hd⟩
  · exact ⟨_, exec_of_access_write hd, .inr (State.writeOp_seqState _ _ _)⟩
  · refine ⟨_, exec_of_access_poll hd, ?_⟩
    rw [State.pollOp_seqState]
    split
    · exact .inr rfl
    · exact .inl rfl

theorem sequencerMove_of_code_le {s : State} (h : s.seqState.toNat ≤ 8) :
    ∃ t, sequencerMove s = .next t ∧ (t.seqState = s.seqState ∨ t.seqState = s.seqState + 1) := by
  obtain ⟨i, hi, henc⟩ := exists_configure_of_code_le s.seqState h
  obtain ⟨t, ht, hcode⟩ := exec_configure_code s hi
  rw [henc, idCode_mkId] at hcode
  exact ⟨t, (sequencerMove_of_encode henc).trans ht, hcode⟩

/-- IDLE maps a state in its code to itself (R92). -/
theorem sequencerMove_of_idle {s : State} (h : s.seqState = 9#4) : sequencerMove s = .next s := by
  rw [sequencerMove_of_encode (i := .idle) (h ▸ rfl)]
  change Host.Outcome.next { s with seqState := 9#4 } = .next s
  rw [← h]

/-- The sequencer stays in its code or goes to the next one, and from code 9 on it stays (R66). -/
theorem sequencerMove_code {s t : State} (h : sequencerMove s = .next t) :
    t.seqState = s.seqState ∨ (s.seqState.toNat ≤ 8 ∧ t.seqState = s.seqState + 1) := by
  have range : ∀ c : BitVec 4, c.toNat ≤ 8 ∨ c = 9#4 ∨ 10 ≤ c.toNat := by decide
  rcases range s.seqState with hle | hidle | hill
  · obtain ⟨u, hu, hcode⟩ := sequencerMove_of_code_le hle
    obtain rfl := Host.Outcome.next.inj (hu.symm.trans h)
    exact hcode.imp_right fun hnext => ⟨hle, hnext⟩
  · obtain rfl := Host.Outcome.next.inj ((sequencerMove_of_idle hidle).symm.trans h)
    exact .inl rfl
  · obtain rfl := Host.Outcome.next.inj ((sequencerMove_of_illegal hill).symm.trans h)
    exact .inl rfl

/-- Settles O39: the step in each range of codes, and the other agents do not own `seq_state`. -/
theorem sequencerNeverSkips : Obligations.SequencerNeverSkips := by
  refine ⟨fun s i => sequencerMove_of_encode, fun s => sequencerMove_of_idle,
    fun s hill => ⟨_, sequencerMove_of_illegal hill, rfl⟩, fun s => sequencerMove_of_code_le,
    fun m s t hm h => ?_⟩
  obtain ⟨_, _, hstep⟩ := move_eq_next.mp h
  by_cases hseq : m = .sequencer
  · subst hseq
    exact (sequencerMove_code hstep).imp_right fun hnext => ⟨rfl, hnext⟩
  · exact .inl ((agentMove_onlyOwnerWrote hm hstep).sequencer hseq).seqState

/-! ### The awaited conditions (R73) -/

/-- The latched count changes only to the requested one (R36, R79). -/
theorem agentMove_wsAct {m : Move} {s t : State} (hm : m ≠ .rst) (h : agentMove m s = .next t) :
    t.wsAct = s.wsAct ∨ t.wsAct = s.wsReq := by
  by_cases hagent : m = .flashController
  · subst hagent
    obtain rfl := Host.Outcome.next.inj h
    split
    · exact .inr s.flashLatch_wsAct
    · exact .inl rfl
  · exact .inl ((agentMove_onlyOwnerWrote hm h).wsAct hagent)

/-- The ready bit changes only to 1 (R36, R84). -/
theorem agentMove_hsoscRdy {m : Move} {s t : State} (hm : m ≠ .rst) (h : agentMove m s = .next t) :
    t.hsoscRdy = s.hsoscRdy ∨ t.hsoscRdy = 1#1 := by
  by_cases hagent : m = .oscillator
  · subst hagent
    obtain rfl := Host.Outcome.next.inj h
    split
    · exact .inr s.oscReady_hsoscRdy
    · exact .inl rfl
  · exact .inl ((agentMove_onlyOwnerWrote hm h).hsoscRdy hagent)

/-- The live source changes only to the wanted one (R36, R87). -/
theorem agentMove_sws {m : Move} {s t : State} (hm : m ≠ .rst) (h : agentMove m s = .next t) :
    t.sws = s.sws ∨ t.sws = s.sw := by
  by_cases hagent : m = .multiplexer
  · subst hagent
    obtain rfl := Host.Outcome.next.inj h
    split
    · exact .inr s.muxSwitch_sws
    · exact .inl rfl
  · exact .inl ((agentMove_onlyOwnerWrote hm h).sws hagent)

/-- Where the target's count is latched it is also the one requested, before FWS.SET too: there it is the
count 0 of the reset. -/
theorem State.InOrder.wsReq_of_latched {s : State} (h : s.InOrder)
    (hact : s.wsAct.toNat = s.params.flashWaitCycles) : s.wsReq.toNat = s.params.flashWaitCycles := by
  rcases h.wsAct with hzero | hreq
  · have hcycles : s.params.flashWaitCycles = 0 := by rw [← hact, hzero]; rfl
    rw [h.wsReq, hcycles, ite_self]
  · rw [← hreq, hact]

theorem State.InOrder.sw_of_switched {s : State} (h : s.InOrder) (hsws : s.sws = 1#2) : s.sw = 1#2 := by
  rcases h.sws with hzero | hsw
  · rw [hzero] at hsws
    exact absurd hsws (by decide)
  · rw [← hsw, hsws]

/-- Settles O48: each status field changes only to the value it reports on, which is the awaited one
already where the condition holds. -/
theorem awaitedConditionsPersist : Obligations.AwaitedConditionsPersist := by
  intro m s t hs hm h
  obtain ⟨_, _, hstep⟩ := move_eq_next.mp h
  have hparams : t.params = s.params := (agentMove_onlyOwnerWrote hm hstep).model.params
  simp only [State.oscillatorReady, State.clockSwitched, beq_iff_eq, hparams]
  refine ⟨fun hact => ?_, fun hrdy => ?_, fun hsws => ?_⟩
  · rcases agentMove_wsAct hm hstep with e | e <;> rw [e]
    · exact hact
    · exact hs.wsReq_of_latched hact
  · rcases agentMove_hsoscRdy hm hstep with e | e <;> rw [e]
    exact hrdy
  · rcases agentMove_sws hm hstep with e | e <;> rw [e]
    · exact hsws
    · exact hs.sw_of_switched hsws

end Sys2Proof.Machine

/-! Flash timing (spec/41_flash_timing.md R75 to R79): the wait-state lookup is the first row that covers a
frequency, the two operations store and await the count it gives for the target, and the flash controller
copies the request. -/

namespace Sys2Proof.Config

/-! ### The wait-state lookup (R75, R76) -/

theorem wsLookup_zero (table : List (Nat × Nat)) : wsLookup table 0 = none := rfl

theorem wsLookup_of_pos (table : List (Nat × Nat)) {f : Nat} (hf : 0 < f) :
    wsLookup table f = (table.find? fun row => decide (f ≤ row.1)).map Prod.snd :=
  if_neg hf.ne'

/-- The first row answers where its limit covers the frequency, the rest of the table elsewhere. -/
theorem wsLookup_cons (row : Nat × Nat) (rows : List (Nat × Nat)) {f : Nat} (hf : 0 < f) :
    wsLookup (row :: rows) f = if f ≤ row.1 then some row.2 else wsLookup rows f := by
  rw [wsLookup_of_pos _ hf, wsLookup_of_pos _ hf, List.find?_cons]
  by_cases h : f ≤ row.1 <;> simp [h]

/-- The first row with `f <= f_max_hz`: every row before it has a limit below `f` (R75). -/
theorem wsLookup_eq_some_iff {table : List (Nat × Nat)} {f w : Nat} :
    wsLookup table f = some w ↔
      0 < f ∧ ∃ before limit after, table = before ++ (limit, w) :: after ∧ f ≤ limit ∧
        ∀ row ∈ before, row.1 < f := by
  rcases Nat.eq_zero_or_pos f with rfl | hf
  · simp [wsLookup_zero]
  · rw [wsLookup_of_pos _ hf, Option.map_eq_some_iff]
    simp only [List.find?_eq_some_iff_append, Prod.exists, decide_eq_true_eq, Bool.not_eq_true',
      decide_eq_false_iff_not, Nat.not_le]
    constructor
    · rintro ⟨limit, _, ⟨hle, before, after, rfl, hbefore⟩, rfl⟩
      exact ⟨hf, before, limit, after, rfl, hle, hbefore⟩
    · rintro ⟨_, before, limit, after, rfl, hle, hbefore⟩
      exact ⟨limit, w, ⟨hle, before, after, rfl, hbefore⟩, rfl⟩

/-- Settles O14: the first row that covers the frequency, split off the table; for the target it is
`FLASH_WAIT_CYCLES` by definition. -/
theorem lookupIsFirstRow : Obligations.LookupIsFirstRow :=
  ⟨fun _ _ _ => wsLookup_eq_some_iff, fun _ => Params.targetLookup⟩

theorem timingOk_iff {table : List (Nat × Nat)} {f w : Nat} :
    timingOk table f w = true ↔ ∃ least, wsLookup table f = some least ∧ least ≤ w := by
  unfold timingOk
  cases wsLookup table f <;> simp

theorem Params.countsNonDecreasing {p : Params} (h : p.WellFormed) :
    (p.wsTable.map Prod.snd).Pairwise (· ≤ ·) := by
  simpa only [ParamCheck.holds, decide_eq_true_eq] using p.holds_of_wellFormed h .countsNonDecreasing

/-- With counts that do not decrease, no row that covers a frequency has a count below the lookup's. -/
theorem wsLookup_le_of_mem {table : List (Nat × Nat)} (hcounts : (table.map Prod.snd).Pairwise (· ≤ ·))
    {g : Nat} (hg : 0 < g) {row : Nat × Nat} (hrow : row ∈ table) (hle : g ≤ row.1) :
    ∃ least, wsLookup table g = some least ∧ least ≤ row.2 := by
  induction table with
  | nil => cases hrow
  | cons first rows ih =>
    rw [List.map_cons, List.pairwise_cons] at hcounts
    obtain ⟨hfirst, hrest⟩ := hcounts
    rw [wsLookup_cons first rows hg]
    by_cases hcovers : g ≤ first.1
    · refine ⟨first.2, if_pos hcovers, ?_⟩
      rcases List.mem_cons.mp hrow with rfl | hmem
      · exact le_rfl
      · exact hfirst _ (List.mem_map_of_mem hmem)
    · rw [if_neg hcovers]
      rcases List.mem_cons.mp hrow with rfl | hmem
      · exact absurd hle hcovers
      · exact ih hrest hmem

/-- Settles O15: the row found at `f` covers every lower frequency too, so the lookup there is at most its
count. -/
theorem timingOkIsMonotone : Obligations.TimingOkIsMonotone := by
  refine ⟨fun _ _ _ => timingOk_iff, fun p f g w hp hf hg hgf => ?_⟩
  obtain ⟨count, hlookup, hcount⟩ := timingOk_iff.mp hf
  obtain ⟨_, before, limit, after, htable, hlimit, _⟩ := wsLookup_eq_some_iff.mp hlookup
  have hmem : (limit, count) ∈ p.wsTable := htable ▸ List.mem_append_right before List.mem_cons_self
  obtain ⟨least, hleast, hle⟩ :=
    wsLookup_le_of_mem (Params.countsNonDecreasing hp) hg hmem (hgf.trans hlimit)
  exact timingOk_iff.mpr ⟨least, hleast, hle.trans hcount⟩

end Sys2Proof.Config

namespace Sys2Proof.Machine

open Sys2Proof.Config

/-! ### FWS.SET (R77) -/

/-- A well-formed write descriptor replaces the masked bits of its register's word by its data (R45,
R59). -/
theorem State.readReg_writeReg_of_wellFormed (s : State) {w : RegWriter} {d : WriteAccess}
    (hd : d.wellFormed w = true) (hreg : d.reg ≠ .pinBsr) :
    (s.writeReg w d.reg d.wmask d.data).readReg d.reg =
      (s.readReg d.reg &&& ~~~d.wmask) ||| d.data := by
  apply BitVec.eq_of_getLsbD_eq
  intro b hb
  obtain ⟨howned, hinside⟩ : (d.wmask.getLsbD b = true → writableBit w d.reg b = true) ∧
      (d.data.getLsbD b = true → d.wmask.getLsbD b = true) := by
    have := List.all_eq_true.mp hd b (List.mem_range.mpr hb)
    simpa [← Bool.not_eq_true, ← imp_iff_not_or] using this
  rw [s.getLsbD_readReg_writeReg w hreg, BitVec.getLsbD_or, BitVec.getLsbD_and, BitVec.getLsbD_not]
  by_cases hmask : d.wmask.getLsbD b = true
  · rw [if_pos ⟨rfl, hmask, howned hmask⟩, hmask]
    simp
  · have hdata : d.data.getLsbD b = false := Bool.eq_false_iff.mpr (mt hinside hmask)
    rw [if_neg fun ⟨_, hset, _⟩ => hmask hset, hdata, Bool.eq_false_iff.mpr hmask]
    simp [hb]

/-- FWS.SET as one record update (R60, R67, R77). -/
theorem exec_fwsSet (s : State) :
    exec .fwsSet s = .next { s with
      wsReq := BitVec.ofNat 3 s.params.flashWaitCycles
      seqState := 1#4
      trace := s.trace ++
        [.write 0x00#5 0x00#8 0x00000007#32 (BitVec.ofNat 32 s.params.flashWaitCycles)] } := by
  rw [exec_of_access_write rfl, if_neg (by decide), State.writeOp, writeReg_fwsSet, fwsSetAccess_eq]
  rfl

/-- Settles O22: the count fits `WS_REQ`, and the descriptor of FWS.SET masks no other field of
`FLASH_TIMING`. -/
theorem fwsSetRequestsCount : Obligations.FwsSetRequestsCount := by
  refine ⟨fun s h => sequencerMove_of_encode (h ▸ rfl), fun s _ hp => ⟨_, exec_fwsSet s, ?_, ?_, rfl⟩⟩
  · have hfits : s.params.flashWaitCycles < 2 ^ 3 := Nat.lt_succ_of_le (Params.flashWaitCycles_le hp)
    rw [BitVec.toNat_ofNat, Nat.mod_eq_of_lt hfits]
  · have hword := s.readReg_writeReg_of_wellFormed (access_wellFormed hp .fwsSet) nofun
    rw [writeReg_fwsSet, fwsSetAccess_eq] at hword
    exact hword

/-! ### FWS.WAIT (R78) -/

theorem State.readReg_flashTiming_wsAct (s : State) :
    (s.readReg .flashTiming).extractLsb' 4 3 = s.wsAct := by
  have key : ∀ act req : BitVec 3, (0#25 ++ act ++ 0#1 ++ req : Word).extractLsb' 4 3 = act := by decide
  exact key s.wsAct s.wsReq

/-- Settles O23: the status-wait template, whose masked comparison is one of the whole field `WS_ACT`. -/
theorem fwsWaitAwaitsLatch : Obligations.FwsWaitAwaitsLatch := by
  refine ⟨fun s h => sequencerMove_of_encode (h ▸ rfl), fun s _ hp => ?_⟩
  have hsees := sees_fwsWait s s.params (Params.flashWaitCycles_le hp)
  rw [PollAccess.sees, beq_iff_eq] at hsees
  rw [exec_of_access_poll rfl, s.pollOp_eq, s.readReg_flashTiming_wsAct, if_congr hsees rfl rfl]
  rfl

/-! ### FlashLatch (R79) -/

theorem State.flashLatchEnabled_iff (s : State) :
    s.flashLatchEnabled = true ↔ s.params.flashLatches = true ∧ s.wsAct ≠ s.wsReq := by
  rw [State.flashLatchEnabled, Bool.and_eq_true, bne_iff_ne]

/-- In a state that runs every move is its agent's step (R12, R63). -/
theorem State.Runs.move_eq {s : State} (h : s.Runs) (m : Move) : move m s = agentMove m s := by
  obtain ⟨t, ht⟩ := agentMove_next m s
  rw [ht]
  exact move_eq_next.mpr ⟨h.params, .inr h.fields, ht⟩

theorem agentMove_flashController_of_enabled {s : State} (h : s.flashLatchEnabled = true) :
    agentMove .flashController s = .next s.flashLatch := by
  simp only [agentMove, if_pos h]

/-- Settles O34: an enabled flash controller makes its step, which is the copy and its event. -/
theorem flashLatchCopiesRequest : Obligations.FlashLatchCopiesRequest := by
  refine fun s => ⟨s.flashLatchEnabled_iff, fun hruns henabled => ?_⟩
  rw [hruns.move_eq, agentMove_flashController_of_enabled henabled]
  rfl

end Sys2Proof.Machine

/-! Oscillator and clock multiplexer (spec/42_osc_mux.md R81 to R87): the frequencies the clock fields give,
the four operations, each by its template, and the steps with which the oscillator and the
multiplexer answer them. -/

namespace Sys2Proof.Machine

open Sys2Proof.Config

/-! ### The frequency functions (R81) -/

@[simp] theorem State.baseHz_zero (s : State) : s.baseHz 0#2 = some s.params.defaultHz := rfl

@[simp] theorem State.baseHz_one (s : State) : s.baseHz 1#2 = some s.params.targetHz := rfl

theorem State.srcReady_one (s : State) : s.srcReady 1#2 = true ↔ s.hsoscRdy = 1#1 := beq_iff_eq

/-- The codes 0 and 1 name a clock source, and a source has a frequency. -/
theorem State.exists_baseHz_of_lt_two (s : State) {source : BitVec 2} (h : source.toNat < 2) :
    ∃ f, s.baseHz source = some f := by
  have codes : ∀ c : BitVec 2, c.toNat < 2 → c = 0#2 ∨ c = 1#2 := by decide
  rcases codes source h with rfl | rfl
  · exact ⟨_, s.baseHz_zero⟩
  · exact ⟨_, s.baseHz_one⟩

theorem State.InOrder.sws_eq_zero_or_one {s : State} (h : s.InOrder) : s.sws = 0#2 ∨ s.sws = 1#2 := by
  rcases h.sws with hzero | hsw
  · exact .inl hzero
  · rw [hsw, h.sw]
    split
    · exact .inr rfl
    · exact .inl rfl

theorem State.InOrder.sysclkHz_eq {s : State} (h : s.InOrder) :
    s.sysclkHz = some (if s.sws = 1#2 then s.params.targetHz else s.params.defaultHz) := by
  rcases h.sws_eq_zero_or_one with hsws | hsws <;> simp [State.sysclkHz, hsws]

/-- The AHB clock is undivided in every state in order (R81). -/
theorem State.InOrder.hclkHz_eq {s : State} (h : s.InOrder) : s.hclkHz = s.sysclkHz := if_pos h.hpre

/-- The APB clock is undivided in every state in order (R81). -/
theorem State.InOrder.pclkHz_eq {s : State} (h : s.InOrder) : s.pclkHz = s.sysclkHz :=
  (if_pos h.ppre).trans h.hclkHz_eq

/-- With `cfg_done` the live source is the high-speed oscillator and the record is its frequency (R34,
R91). -/
theorem State.InOrder.sws_and_hz_of_cfgDone {s : State} (h : s.InOrder) (hdone : s.cfgDone = true) :
    s.sws = 1#2 ∧ s.hz.toNat = s.params.targetHz := by
  have hcode : s.seqState = 9#4 := beq_iff_eq.mp hdone
  have hhz := h.hz
  have hsws := h.switched
  rw [hcode] at hhz hsws
  exact ⟨hsws (by decide), hhz⟩

/-- Settles O47: the functions are as defined; in order the two prescalers are undivided and the live source
is 0 or 1, and it is 1 once the configuration is done. -/
theorem frequenciesAreDefined : Obligations.FrequenciesAreDefined := by
  refine ⟨fun s => ⟨rfl, rfl, rfl, rfl, rfl, rfl, rfl, rfl, s.srcReady_one⟩,
    fun s h => ⟨h.sysclkHz_eq, h.hclkHz_eq, h.pclkHz_eq, fun hdone => ?_⟩⟩
  obtain ⟨hsws, hhz⟩ := h.sws_and_hz_of_cfgDone hdone
  rw [h.hclkHz_eq, h.sysclkHz_eq, if_pos hsws, ← hhz]
  rfl

/-! ### OSC.ON (R82) -/

/-- OSC.ON as one record update (R60, R67, R82). -/
theorem exec_oscOn (s : State) :
    exec .oscOn s = .next { s with
      hsoscOn := 1#1
      seqState := 3#4
      trace := s.trace ++ [.write 0x02#5 0x04#8 0x00000001#32 0x00000001#32] } := by
  rw [exec_of_access_write rfl, if_neg (by decide), State.writeOp, writeReg_oscOn]
  rfl

/-- Settles O24: OSC.ON stores the bit `HSOSC_ON` and keeps the other field of `OSC_CTRL`. -/
theorem oscOnEnablesOscillator : Obligations.OscOnEnablesOscillator := by
  refine ⟨fun s h => sequencerMove_of_encode (h ▸ rfl), fun s _ => ⟨_, exec_oscOn s, ?_, rfl⟩⟩
  have key : ∀ rdy on : BitVec 1,
      (0#30 ++ rdy ++ 1#1 : Word) = (0#30 ++ rdy ++ on) ||| 0x00000001#32 := by decide
  exact key s.hsoscRdy s.hsoscOn

/-! ### OSC.WAIT (R83) -/

theorem State.readReg_oscCtrl_hsoscRdy (s : State) :
    (s.readReg .oscCtrl).getLsbD 1 = true ↔ s.hsoscRdy = 1#1 := by
  have key : ∀ rdy on : BitVec 1, (0#30 ++ rdy ++ on : Word).getLsbD 1 = true ↔ rdy = 1#1 := by decide
  exact key s.hsoscRdy s.hsoscOn

/-- Settles O25: the status-wait template, whose masked comparison is one of the bit `HSOSC_RDY`. -/
theorem oscWaitAwaitsReady : Obligations.OscWaitAwaitsReady := by
  refine ⟨fun s h => sequencerMove_of_encode (h ▸ rfl), fun s _ => ?_⟩
  have hsees := (sees_oscWait s).trans s.readReg_oscCtrl_hsoscRdy.symm
  rw [PollAccess.sees, beq_iff_eq] at hsees
  rw [exec_of_access_poll rfl, s.pollOp_eq, if_congr hsees rfl rfl]
  rfl

/-! ### MUX.SEL (R85) -/

/-- The check adds to `faults` alone. -/
theorem State.checkReady_eq (s : State) : s.checkReady = { s with faults := s.checkReady.faults } := by
  unfold State.checkReady
  split <;> rfl

theorem State.checkReady_faults_of_ready (s : State) (h : s.hsoscRdy = 1#1) :
    s.checkReady.faults = s.faults := by
  rw [s.checkReady_of_ready h]

theorem State.mem_checkReady_faults (s : State) (h : s.hsoscRdy = 0#1) (k : Mark) :
    k ∈ s.checkReady.faults ↔ k ∈ s.faults ∨ k = .switchBeforeReady s.seqState := by
  rw [State.checkReady, if_pos h, State.mem_raise_faults]

/-- MUX.SEL as one record update, the marks those of its check (R60, R67, R85). -/
theorem exec_muxSel (s : State) :
    exec .muxSel s = .next { s with
      sw := 1#2
      hpre := 0#4
      ppre := 0#3
      seqState := 5#4
      trace := s.trace ++ [.write 0x04#5 0x08#8 0x000007F3#32 0x00000001#32]
      faults := s.checkReady.faults } := by
  rw [exec_of_access_write rfl, if_pos rfl, State.writeOp, writeReg_muxSel, s.checkReady_eq]
  rfl

/-- Settles O26: the one descriptor of MUX.SEL masks the three fields and not `SWS`, and its check marks
exactly an oscillator that is not ready. -/
theorem muxSelSelectsHighSpeed : Obligations.MuxSelSelectsHighSpeed := by
  refine ⟨fun s h => sequencerMove_of_encode (h ▸ rfl), fun s _ => ⟨_, exec_muxSel s, ?_, rfl,
    s.checkReady_faults_of_ready, s.mem_checkReady_faults⟩⟩
  have hword := s.readReg_writeReg_of_wellFormed (w := .sequencer) (d := muxSelAccess) (by decide) nofun
  rw [writeReg_muxSel, muxSelAccess_eq] at hword
  exact hword

/-! ### MUX.WAIT (R86) -/

theorem State.readReg_clkCfg_sws (s : State) : (s.readReg .clkCfg).extractLsb' 2 2 = s.sws := by
  apply BitVec.eq_of_getLsbD_eq
  intro b hb
  have hcovers : RegField.sws.covers .clkCfg (2 + b) = true :=
    RegField.covers_iff.mpr ⟨rfl, Nat.le_add_right 2 b, Nat.add_lt_add_left hb 2⟩
  rw [BitVec.getLsbD_extractLsb', s.getLsbD_readReg_of_covers hcovers]
  have hword : b < 32 := hb.trans (by decide)
  simp [State.fieldWord, RegField.lo, hb, hword]

/-- Settles O27: the status-wait template, whose masked comparison is one of the whole field `SWS`. -/
theorem muxWaitAwaitsSwitch : Obligations.MuxWaitAwaitsSwitch := by
  refine ⟨fun s h => sequencerMove_of_encode (h ▸ rfl), fun s _ => ?_⟩
  have hsees := sees_muxWait s
  rw [PollAccess.sees, beq_iff_eq] at hsees
  rw [exec_of_access_poll rfl, s.pollOp_eq, s.readReg_clkCfg_sws, if_congr hsees rfl rfl]
  rfl

/-! ### OscReady (R84) -/

theorem State.oscReadyEnabled_iff (s : State) :
    s.oscReadyEnabled = true ↔ s.params.oscStarts = true ∧ s.hsoscOn = 1#1 ∧ s.hsoscRdy = 0#1 := by
  simp only [State.oscReadyEnabled, Bool.and_eq_true, beq_iff_eq, and_assoc]

theorem agentMove_oscillator_of_enabled {s : State} (h : s.oscReadyEnabled = true) :
    agentMove .oscillator s = .next s.oscReady := by
  simp only [agentMove, if_pos h]

/-- Settles O35: an enabled oscillator makes its step, which is the ready bit and its event. -/
theorem oscReadyNeedsEnable : Obligations.OscReadyNeedsEnable := by
  refine fun s => ⟨s.oscReadyEnabled_iff, fun hruns henabled => ?_⟩
  rw [hruns.move_eq, agentMove_oscillator_of_enabled henabled]
  rfl

/-! ### MuxSwitch (R87) -/

theorem State.muxSwitchEnabled_iff (s : State) :
    s.muxSwitchEnabled = true ↔
      s.params.muxSwitches = true ∧ s.sws ≠ s.sw ∧ s.sw.toNat < 2 ∧ s.srcReady s.sw = true := by
  simp only [State.muxSwitchEnabled, Bool.and_eq_true, bne_iff_ne, decide_eq_true_eq, and_assoc]

theorem agentMove_multiplexer_of_enabled {s : State} (h : s.muxSwitchEnabled = true) :
    agentMove .multiplexer s = .next s.muxSwitch := by
  simp only [agentMove, if_pos h]

/-- The check adds to `faults` alone. -/
theorem State.checkTiming_eq (s : State) : s.checkTiming = { s with faults := s.checkTiming.faults } := by
  unfold State.checkTiming
  split <;> rfl

theorem State.checkTiming_faults_of_ok (s : State) (h : s.timingOkFor s.sw = true) :
    s.checkTiming.faults = s.faults := by
  rw [s.checkTiming_of_ok h]

theorem State.mem_checkTiming_faults (s : State) (h : s.timingOkFor s.sw = false) (k : Mark) :
    k ∈ s.checkTiming.faults ↔ k ∈ s.faults ∨ k = .flashTimingViolation s.sw s.wsAct := by
  rw [State.checkTiming, if_neg (Bool.eq_false_iff.mp h), State.mem_raise_faults]

/-- MuxSwitch as one record update, the marks those of its check. -/
theorem State.muxSwitch_eq (s : State) :
    s.muxSwitch = { s with
      sws := s.sw
      trace := s.trace ++ [.env .muxSwitch]
      faults := s.muxSwitch.faults } := by
  rw [State.muxSwitch, s.checkTiming_eq]
  rfl

/-- The clock and its status change together (R87). -/
theorem State.muxSwitch_sysclkHz (s : State) : s.muxSwitch.sysclkHz = s.baseHz s.sw := by
  simp only [State.sysclkHz, State.baseHz, State.muxSwitch_sws, State.muxSwitch_params]

theorem State.timingOkFor_of_baseHz {s : State} {source : BitVec 2} {f : Nat}
    (h : s.baseHz source = some f) :
    s.timingOkFor source = timingOk s.params.wsTable f s.wsAct.toNat := by
  simp only [State.timingOkFor, h]

/-- Settles O36: the wanted source has a frequency, the step makes it the system clock's, and its check
compares that frequency with the latched count. -/
theorem muxSwitchNeedsReadySource : Obligations.MuxSwitchNeedsReadySource := by
  refine fun s => ⟨s.muxSwitchEnabled_iff, fun hruns henabled => ?_⟩
  obtain ⟨_, _, hsource, _⟩ := s.muxSwitchEnabled_iff.mp henabled
  obtain ⟨f, hf⟩ := s.exists_baseHz_of_lt_two hsource
  refine ⟨_, f, (hruns.move_eq _).trans (agentMove_multiplexer_of_enabled henabled), hf,
    s.muxSwitch_sysclkHz.trans hf, s.muxSwitch_eq, ?_⟩
  rw [← State.timingOkFor_of_baseHz hf]
  exact ⟨s.checkTiming_faults_of_ok, s.mem_checkTiming_faults⟩

end Sys2Proof.Machine

/-! Tick timer (spec/43_tick_timer.md R88 to R94): the period, the three operations that load, start and
record, IDLE, and the timer's step, which makes a tick pending or loses it with a mark. -/

namespace Sys2Proof.Config

/-! ### The tick period (R88) -/

theorem Params.tickPeriodCycles_eq (p : Params) : p.tickPeriodCycles = p.targetHz / 1000 := rfl

/-- Settles O16: the floor's two bounds, the range R12 asks of the period, and the target frequency a
nonzero period needs. -/
theorem tickPeriodIsFloor : Obligations.TickPeriodIsFloor := by
  intro p
  refine ⟨Nat.div_mul_le_self _ _, ?_, fun hp => ?_⟩
  · rw [p.tickPeriodCycles_eq]
    omega
  · obtain ⟨hpos, hlt⟩ := Params.periodRange hp
    rw [p.tickPeriodCycles_eq] at hpos
    exact ⟨hpos, hlt, (Nat.one_le_div_iff (by decide)).mp hpos⟩

end Sys2Proof.Config

namespace Sys2Proof.Machine

open Sys2Proof.Config

/-! ### TICK.LOAD (R89) -/

/-- TICK.LOAD as one record update (R60, R67, R89). -/
theorem exec_tickLoad (s : State) :
    exec .tickLoad s = .next { s with
      period := BitVec.ofNat 24 s.params.tickPeriodCycles
      seqState := 7#4
      trace := s.trace ++
        [.write 0x06#5 0x10#8 0x00FFFFFF#32 (BitVec.ofNat 32 s.params.tickPeriodCycles)] } := by
  rw [exec_of_access_write rfl, if_neg (by decide), State.writeOp, writeReg_tickLoad, tickLoadAccess_eq]
  rfl

theorem State.readReg_tickPeriod (s : State) : s.readReg .tickPeriod = s.period.setWidth 32 :=
  (BitVec.setWidth_eq_append (by decide)).symm

/-- Settles O28: the period fits `PERIOD`, whose value is the word of `TICK_PERIOD`. -/
theorem tickLoadWritesPeriod : Obligations.TickLoadWritesPeriod := by
  refine ⟨fun s h => sequencerMove_of_encode (h ▸ rfl), fun s _ hp => ⟨_, exec_tickLoad s, ?_, rfl⟩⟩
  obtain ⟨_, hfits⟩ := Params.periodRange hp
  rw [State.readReg_tickPeriod, BitVec.toNat_setWidth_of_le (by decide), BitVec.toNat_ofNat,
    Nat.mod_eq_of_lt hfits]

/-! ### TICK.EN (R90) -/

/-- TICK.EN as one record update (R60, R67, R90). -/
theorem exec_tickEn (s : State) :
    exec .tickEn s = .next { s with
      en := 1#1
      seqState := 8#4
      trace := s.trace ++ [.write 0x07#5 0x0C#8 0x00000001#32 0x00000001#32] } := by
  rw [exec_of_access_write rfl, if_neg (by decide), State.writeOp, writeReg_tickEn]
  rfl

theorem State.readReg_tickCtrl (s : State) : s.readReg .tickCtrl = s.en.setWidth 32 :=
  (BitVec.setWidth_eq_append (by decide)).symm

/-- Settles O29: TICK.EN stores the bit `EN`, which is all that enables the timer's step. -/
theorem tickEnStartsTimer : Obligations.TickEnStartsTimer :=
  ⟨fun _ h => sequencerMove_of_encode (h ▸ rfl), fun s _ =>
    ⟨_, exec_tickEn s, State.readReg_tickCtrl _, rfl, rfl⟩⟩

/-! ### FREQ.REC (R91) -/

/-- FREQ.REC as one record update (R60, R67, R91). -/
theorem exec_freqRec (s : State) :
    exec .freqRec s = .next { s with
      hz := BitVec.ofNat 32 s.params.targetHz
      seqState := 9#4
      trace := s.trace ++
        [.write 0x08#5 0x14#8 0xFFFFFFFF#32 (BitVec.ofNat 32 s.params.targetHz)] } := by
  rw [exec_of_access_write rfl, if_neg (by decide), State.writeOp, writeReg_freqRec, freqRecAccess_eq]
  rfl

/-- Settles O30: the target frequency fits `HZ`, and the code FREQ.REC leads to is that of `cfg_done`. -/
theorem freqRecRecordsFrequency : Obligations.FreqRecRecordsFrequency := by
  refine ⟨fun s h => sequencerMove_of_encode (h ▸ rfl), fun s _ hp => ⟨_, exec_freqRec s, ?_, rfl, rfl⟩⟩
  obtain ⟨_, hfits⟩ := Params.targetRange hp
  exact (BitVec.toNat_ofNat _ _).trans (Nat.mod_eq_of_lt hfits)

/-! ### IDLE (R92) -/

/-- Settles O31: in code 9 the sequencer's step is IDLE, and that step keeps the state. -/
theorem idleChangesNothing : Obligations.IdleChangesNothing := by
  intro s h
  have hrun : sequencerMove s = exec .idle s := sequencerMove_of_encode (h ▸ rfl)
  exact ⟨hrun, hrun.symm.trans (sequencerMove_of_idle h)⟩

/-! ### TickFire (R94) -/

theorem State.tickFireEnabled_iff (s : State) : s.tickFireEnabled = true ↔ s.en = 1#1 := beq_iff_eq

theorem agentMove_tickTimer_of_enabled {s : State} (h : s.tickFireEnabled = true) :
    agentMove .tickTimer s = .next s.tickFire := by
  simp only [agentMove, if_pos h]

theorem State.tickFire_of_not_pending (s : State) (h : s.tickPending = 0#1) :
    s.tickFire = { s with tickPending := 1#1, trace := s.trace ++ [.fire] } := by
  rw [State.tickFire, if_neg (by rw [h]; decide)]
  rfl

theorem State.tickFire_of_pending (s : State) (h : s.tickPending = 1#1) :
    s.tickFire = (s.raise (.tickOverrun s.tickCount)).emit .fire := by
  rw [State.tickFire, if_pos h]

/-- Settles O37: an enabled timer makes its step, which sets `tick_pending` where it is 0 and adds the mark
where it is 1. -/
theorem tickFireOrOverrun : Obligations.TickFireOrOverrun := by
  refine fun s => ⟨s.tickFireEnabled_iff, fun hruns henabled => ⟨_,
    (hruns.move_eq _).trans (agentMove_tickTimer_of_enabled henabled),
    s.tickFire_of_not_pending, fun hpending => ?_⟩⟩
  rw [s.tickFire_of_pending hpending]
  exact ⟨rfl, s.mem_raise_faults _⟩

end Sys2Proof.Machine

/-! The tick divider and the output (spec/44_toggler.md R95 to R102). One equation says what servicing a tick
does; the number of toggles after n ticks is then a function of n alone, and the counting law, the square wave
and the short half-period at the wrap are all read off it. -/

namespace Sys2Proof.Machine

open Sys2Proof.Config

/-! ### One tick (R95) -/

theorem State.togglesNext_iff (s : State) :
    s.togglesNext = true ↔ (s.tickCount + 1#32).toNat % 1000 = 0 := decide_eq_true_iff

/-- The whole effect of servicing a tick. -/
theorem State.takeTick_eq (s : State) :
    s.takeTick = { s with
      tickCount := s.tickCount + 1#32
      tickPending := 0#1
      pinState := if s.togglesNext then ~~~s.pinState else s.pinState
      out := if s.togglesNext then ~~~s.pinState else s.out
      trace := s.trace ++ [.tgl (s.tickCount + 1#32) s.togglesNext
        (if s.togglesNext then ~~~s.pinState else s.pinState)] } := by
  unfold State.takeTick
  split
  case isTrue h =>
    rw [s.togglesNext_iff.mpr h, State.toggle_eq]
    rfl
  case isFalse h =>
    rw [Bool.eq_false_iff.mpr (mt s.togglesNext_iff.mp h)]
    rfl

@[simp] theorem State.takeTick_tickCount (s : State) : s.takeTick.tickCount = s.tickCount + 1#32 := by
  rw [State.takeTick_eq]

theorem State.takeTick_pinState (s : State) :
    s.takeTick.pinState = if s.togglesNext then ~~~s.pinState else s.pinState := by
  rw [State.takeTick_eq]

theorem State.takeTick_trace (s : State) :
    s.takeTick.trace = s.trace ++ [.tgl (s.tickCount + 1#32) s.togglesNext s.takeTick.pinState] := by
  rw [State.takeTick_pinState, State.takeTick_eq]

/-- Settles O32: both branches are the equation of `takeTick`, at a count that is a multiple of 1000 and at
one that is not. -/
theorem tglTickCountsAndToggles : Obligations.TglTickCountsAndToggles := by
  refine fun s _ => ⟨s.takeTick, rfl, ?_, fun h => ?_, fun h => ?_⟩
  · rw [State.takeTick_tickCount, BitVec.toNat_add]
    rfl
  · rw [State.takeTick_tickCount, ← State.togglesNext_iff] at h
    rw [State.takeTick_eq, h]
    rfl
  · rw [State.takeTick_tickCount, ne_eq, ← State.togglesNext_iff, Bool.not_eq_true] at h
    rw [State.takeTick_eq, h]
    rfl

/-! ### The number of toggles (R100) -/

/-- How many of the ticks 1 to `n` toggle the output, by the closed form of R100. -/
def togglesAfter (n : Nat) : Nat := n / 2 ^ 32 * 4294968 + n % 2 ^ 32 / 1000

/-- A tick adds a toggle exactly when its count, modulo 2^32, is a multiple of 1000: at the wrap as well,
where 4294967 toggles within the turn become 4294968. -/
theorem togglesAfter_succ (n : Nat) :
    togglesAfter (n + 1) = togglesAfter n + if (n + 1) % 2 ^ 32 % 1000 = 0 then 1 else 0 := by
  unfold togglesAfter
  split <;> omega

/-- A whole turn of the counter holds an even number of toggles, so the parity is that of the last turn. -/
theorem togglesAfter_mod_two (n : Nat) : togglesAfter n % 2 = n % 2 ^ 32 / 1000 % 2 := by
  unfold togglesAfter
  omega

section
variable {s : State} {n : Nat} (hcount : s.tickCount.toNat = n % 2 ^ 32)
include hcount

theorem State.takeTick_tickCount_toNat : s.takeTick.tickCount.toNat = (n + 1) % 2 ^ 32 := by
  rw [State.takeTick_tickCount, BitVec.toNat_add, hcount]
  exact Nat.mod_add_mod n (2 ^ 32) 1

/-- In a state that has counted `n` ticks, the next one toggles exactly when it adds to `togglesAfter`. -/
theorem State.togglesAfter_succ_of_count :
    togglesAfter (n + 1) = togglesAfter n + s.togglesNext.toNat := by
  have hnext : s.togglesNext = decide ((n + 1) % 2 ^ 32 % 1000 = 0) := by
    rw [← State.takeTick_tickCount_toNat hcount, State.takeTick_tickCount]
    rfl
  rw [togglesAfter_succ, hnext, Bool.toNat, Bool.cond_decide]

end

/-- `pin_state` gains in parity what the tick gains in toggles. -/
theorem State.takeTick_pinState_toNat (s : State) :
    s.takeTick.pinState.toNat = (s.pinState.toNat + s.togglesNext.toNat) % 2 := by
  have key : ∀ (pin : BitVec 1) (b : Bool),
      (if b then ~~~pin else pin).toNat = (pin.toNat + b.toNat) % 2 := by decide
  rw [State.takeTick_pinState, key]

/-! ### Moves that service no tick -/

/-- From `s` to `t` the trace has grown, if at all, by events that are no execution of the tick handler. -/
def AppendsNoTick (s t : State) : Prop :=
  ∃ es : List Event, (∀ e ∈ es, e.isTick = false) ∧ t.trace = s.trace ++ es

theorem AppendsNoTick.of_trace_eq {s t : State} (h : t.trace = s.trace) : AppendsNoTick s t :=
  ⟨[], nofun, h.trans (List.append_nil _).symm⟩

theorem AppendsNoTick.of_event {s t : State} {e : Event} (he : e.isTick = false)
    (h : t.trace = s.trace ++ [e]) : AppendsNoTick s t :=
  ⟨[e], List.forall_mem_singleton.mpr he, h⟩

/-- An agent whose step is not enabled appends nothing. -/
theorem AppendsNoTick.ite {s t : State} (enabled : Bool) (h : AppendsNoTick s t) :
    AppendsNoTick s (if enabled then t else s) := by
  split
  · exact h
  · exact .of_trace_eq rfl

theorem State.hostRead_appendsNoTick (s : State) (off : BitVec 8) : AppendsNoTick s (s.hostRead off) := by
  unfold State.hostRead
  split
  · exact .of_event rfl (s.emit_trace _)
  · exact .of_trace_eq (s.raise_trace _)

/-- The sequencer's events are writes and reads (R67, R68). -/
theorem sequencerMove_appendsNoTick {s t : State} (h : sequencerMove s = .next t) : AppendsNoTick s t := by
  rcases sequencerMove_cases s with
    ⟨_, e⟩ | ⟨_, e⟩ | ⟨_, e⟩ | ⟨_, e⟩ | ⟨_, e⟩ | ⟨_, e⟩ | ⟨_, e⟩ | ⟨_, e⟩ | ⟨_, e⟩ | ⟨_, e⟩ | ⟨_, e⟩ <;>
    obtain rfl := Host.Outcome.next.inj (e.symm.trans h)
  · exact .of_event rfl (s.writeOp_trace _ _)
  · exact .of_event rfl (s.pollOp_trace _ _)
  · exact .of_event rfl (s.writeOp_trace _ _)
  · exact .of_event rfl (s.pollOp_trace _ _)
  · exact .of_event rfl ((s.checkReady.writeOp_trace _ _).trans (by rw [s.checkReady_trace]))
  · exact .of_event rfl (s.pollOp_trace _ _)
  · exact .of_event rfl (s.writeOp_trace _ _)
  · exact .of_event rfl (s.writeOp_trace _ _)
  · exact .of_event rfl (s.writeOp_trace _ _)
  · exact .of_trace_eq rfl
  · exact .of_trace_eq (s.raise_trace _)

/-- Only the toggler executes the tick handler (R108); `rst` empties the trace (R120). -/
theorem agentMove_appendsNoTick {m : Move} {s t : State} (hrst : m ≠ .rst) (htoggler : m ≠ .toggler)
    (h : agentMove m s = .next t) : AppendsNoTick s t := by
  cases m with
  | sequencer => exact sequencerMove_appendsNoTick h
  | toggler => exact absurd rfl htoggler
  | flashController => exact Host.Outcome.next.inj h ▸ (AppendsNoTick.of_event rfl s.flashLatch_trace).ite _
  | oscillator => exact Host.Outcome.next.inj h ▸ (AppendsNoTick.of_event rfl s.oscReady_trace).ite _
  | multiplexer => exact Host.Outcome.next.inj h ▸ (AppendsNoTick.of_event rfl s.muxSwitch_trace).ite _
  | tickTimer => exact Host.Outcome.next.inj h ▸ (AppendsNoTick.of_event rfl s.tickFire_trace).ite _
  | hostRead off => exact Host.Outcome.next.inj h ▸ s.hostRead_appendsNoTick off
  | rst => exact absurd rfl hrst

/-! ### The counting law (R100) -/

theorem Event.isToggle_of_not_isTick {e : Event} (h : e.isTick = false) : e.isToggle = false := by
  cases e with
  | tgl => exact absurd h nofun
  | _ => rfl

/-- The law speaks of `tick_count`, `pin_state` and the handler's events alone. -/
theorem State.CountingLaw.of_appendsNoTick {s t : State} (hs : s.CountingLaw)
    (hsame : SameTogglerState s t) (hno : AppendsNoTick s t) : t.CountingLaw := by
  obtain ⟨es, hes, htrace⟩ := hno
  have hticks : t.ticksServiced = s.ticksServiced := by
    have : es.countP Event.isTick = 0 := List.countP_eq_zero.mpr (by simpa using hes)
    rw [State.ticksServiced, htrace, List.countP_append, this]
    rfl
  have htoggles : t.toggles = s.toggles := by
    have : es.countP Event.isToggle = 0 :=
      List.countP_eq_zero.mpr fun e he => by simp [Event.isToggle_of_not_isTick (hes e he)]
    rw [State.toggles, htrace, List.countP_append, this]
    rfl
  refine ⟨?_, ?_, ?_, fun c toggled level h => ?_⟩
  · rw [hsame.tickCount, hticks, hs.count]
  · rw [htoggles, hticks, hs.toggles]
  · rw [hsame.pinState, hticks, hs.pin]
  · rw [htrace, List.mem_append] at h
    rcases h with h | h
    · exact hs.multiples c toggled level h
    · exact absurd (hes _ h) nofun

theorem State.takeTick_ticksServiced (s : State) : s.takeTick.ticksServiced = s.ticksServiced + 1 := by
  rw [State.ticksServiced, State.takeTick_trace, List.countP_append]
  rfl

theorem State.takeTick_toggles (s : State) : s.takeTick.toggles = s.toggles + s.togglesNext.toNat := by
  rw [State.toggles, State.takeTick_trace, List.countP_append, List.countP_singleton]
  cases h : s.togglesNext <;> rfl

/-- A tick moves both sides of the law from n to n + 1. -/
theorem State.CountingLaw.takeTick {s : State} (hs : s.CountingLaw) : s.takeTick.CountingLaw := by
  have hsucc := State.togglesAfter_succ_of_count hs.count
  have hpin : s.pinState.toNat = togglesAfter s.ticksServiced % 2 :=
    hs.pin.trans (togglesAfter_mod_two _).symm
  refine ⟨?_, ?_, ?_, fun c toggled level h => ?_⟩
  · rw [s.takeTick_ticksServiced]
    exact State.takeTick_tickCount_toNat hs.count
  · rw [s.takeTick_ticksServiced, s.takeTick_toggles, hs.toggles]
    exact hsucc.symm
  · rw [s.takeTick_ticksServiced, s.takeTick_pinState_toNat, hpin, ← togglesAfter_mod_two, hsucc,
      Nat.mod_add_mod]
  · rw [s.takeTick_trace, List.mem_append, List.mem_singleton] at h
    rcases h with h | h
    · exact hs.multiples c toggled level h
    · injection h with hc ht
      rw [hc, ht]
      exact s.togglesNext_iff

theorem State.applyReset_countingLaw (s : State) : s.applyReset.CountingLaw := by
  have hticks : s.applyReset.ticksServiced = 0 := rfl
  refine ⟨?_, ?_, ?_, nofun⟩ <;> rw [hticks] <;> rfl

theorem State.CountingLaw.agentMove {m : Move} {s t : State} (hs : s.CountingLaw)
    (h : agentMove m s = .next t) : t.CountingLaw := by
  by_cases hrst : m = .rst
  · subst hrst
    exact Host.Outcome.next.inj h ▸ s.applyReset_countingLaw
  by_cases htoggler : m = .toggler
  · subst htoggler
    rcases togglerMove_cases s with ⟨_, e⟩ | ⟨_, e⟩ <;>
      obtain rfl := Host.Outcome.next.inj (e.symm.trans h)
    · exact hs.takeTick
    · exact hs
  exact hs.of_appendsNoTick ((agentMove_onlyOwnerWrote hrst h).toggler htoggler)
    (agentMove_appendsNoTick hrst htoggler h)

/-- Settles O54: taking the move from the schedule touches nothing the law speaks of, a serviced tick takes
it from n to n + 1, `rst` starts it again at 0, and no other move appends a tick. -/
theorem countingLawIsKept : Obligations.CountingLawIsKept := by
  intro s t hs h
  have hpop : s.popMove.CountingLaw :=
    hs.of_appendsNoTick (by simp) (.of_trace_eq s.popMove_trace)
  obtain ⟨_, _, hmove⟩ := move_eq_next.mp h
  exact hpop.agentMove hmove

/-! ### Ticks one after another (R101, R102) -/

theorem State.afterTicks_succ (s : State) (k : Nat) : s.afterTicks (k + 1) = (s.afterTicks k).takeTick := rfl

theorem State.afterTicks_tickCount_toNat (s : State) (k : Nat) :
    (s.afterTicks k).tickCount.toNat = (s.tickCount.toNat + k) % 2 ^ 32 := by
  induction k with
  | zero => exact (Nat.mod_eq_of_lt s.tickCount.isLt).symm
  | succ k ih => exact State.takeTick_tickCount_toNat ih

/-- From any state, `pin_state` changes in parity with the toggles between the first count and the last. -/
theorem State.afterTicks_pinState_toNat (s : State) (k : Nat) :
    ((s.afterTicks k).pinState.toNat + togglesAfter s.tickCount.toNat) % 2 =
      (s.pinState.toNat + togglesAfter (s.tickCount.toNat + k)) % 2 := by
  induction k with
  | zero => rfl
  | succ k ih =>
    have hsucc := State.togglesAfter_succ_of_count (s.afterTicks_tickCount_toNat k)
    rw [State.afterTicks_succ, State.takeTick_pinState_toNat, ← Nat.add_assoc, hsucc]
    omega

/-- Two levels are equal when their numbers have one parity. -/
theorem eq_of_toNat_mod_two_eq : ∀ {a b : BitVec 1}, a.toNat % 2 = b.toNat % 2 → a = b := by
  decide

/-- A level is the inverse of another when their numbers have different parities. -/
theorem eq_not_of_toNat_mod_two_eq : ∀ {a b : BitVec 1}, a.toNat % 2 = (b.toNat + 1) % 2 → a = ~~~b := by
  decide

/-- `pin_state` after `k` ticks: the level at the start, inverted when an odd number of toggles lies
between the two counts. -/
theorem State.afterTicks_pinState (s : State) (k : Nat) :
    (s.afterTicks k).pinState =
      if (togglesAfter s.tickCount.toNat + togglesAfter (s.tickCount.toNat + k)) % 2 = 0 then s.pinState
      else ~~~s.pinState := by
  have hparity := s.afterTicks_pinState_toNat k
  split
  · exact eq_of_toNat_mod_two_eq (by omega)
  · exact eq_not_of_toNat_mod_two_eq (by omega)

theorem State.afterTicks_add (s : State) (j k : Nat) :
    s.afterTicks (j + k) = (s.afterTicks j).afterTicks k := by
  induction k with
  | zero => rfl
  | succ k ih => exact congrArg State.takeTick ih

/-- Settles O55: below the wrap, 1000 ticks hold one toggle and 2000 hold two. -/
theorem squareWavePeriod : Obligations.SquareWavePeriod := by
  intro p level n hn pin
  have count {k : Nat} (hk : k ≤ n) : ((State.resetWith p level).afterTicks k).tickCount.toNat = k := by
    have hzero : (State.resetWith p level).tickCount.toNat = 0 := rfl
    rw [State.afterTicks_tickCount_toNat, hzero, Nat.zero_add, Nat.mod_eq_of_lt (Nat.lt_of_le_of_lt hk hn)]
  have later {j k : Nat} (h : j + k = n) : pin n =
      if (togglesAfter j + togglesAfter n) % 2 = 0 then pin j else ~~~pin j := by
    subst h
    simp only [pin]
    rw [State.afterTicks_add, State.afterTicks_pinState, count (Nat.le_add_right j k)]
  refine ⟨fun h => ?_, fun h => ?_⟩
  · rw [later (Nat.sub_add_cancel h), if_neg]
    unfold togglesAfter
    omega
  · rw [later (Nat.sub_add_cancel h), if_pos]
    unfold togglesAfter
    omega

/-- Settles O56: the toggles stay 4294967 for 295 ticks, are 4294968 from the wrap on, and 4294969 from the
1000th tick after it. -/
theorem wrapShortensHalfPeriod : Obligations.WrapShortensHalfPeriod := by
  intro s hs
  have hcount : s.tickCount.toNat = 4294967000 := congrArg BitVec.toNat hs
  have count (k : Nat) : (s.afterTicks k).tickCount.toNat = (4294967000 + k) % 2 ^ 32 :=
    hcount ▸ s.afterTicks_tickCount_toNat k
  have pin (k : Nat) : (s.afterTicks k).pinState =
      if (togglesAfter 4294967000 + togglesAfter (4294967000 + k)) % 2 = 0 then s.pinState
      else ~~~s.pinState := hcount ▸ s.afterTicks_pinState k
  refine ⟨fun k hk => (pin k).trans (if_pos ?_), BitVec.eq_of_toNat_eq (count 296),
    fun k hlo hhi => (pin k).trans (if_neg ?_), BitVec.eq_of_toNat_eq (count 1296),
    (pin 1296).trans (if_pos rfl)⟩ <;> unfold togglesAfter <;> omega

end Sys2Proof.Machine

/-! Reset and hazards (spec/70_reset_and_hazards.md R124 to R126): a field the sequencer has set tells how far
the fixed order has come, and what the order put before it then holds. -/

namespace Sys2Proof.Machine

open Sys2Proof.Config

/-! ### The hazards of the configuration order (R124, R125, R126) -/

theorem State.InOrder.wsAct_of_code {s : State} (h : s.InOrder) (hcode : 2 ≤ s.seqState.toNat) :
    s.wsAct.toNat = s.params.flashWaitCycles := by
  rw [h.latched hcode, h.wsReq, if_pos (Nat.le_of_succ_le hcode)]

/-- The high-speed source is selected only by the operation with code 4. -/
theorem State.InOrder.code_of_sw {s : State} (h : s.InOrder) (hsw : s.sw = 1#2) : 5 ≤ s.seqState.toNat :=
  (Ne.ite_eq_left_iff (by decide)).mp (h.sw.symm.trans hsw)

/-- The timer is started only by the operation with code 7. -/
theorem State.InOrder.code_of_en {s : State} (h : s.InOrder) (hen : s.en = 1#1) : 8 ≤ s.seqState.toNat :=
  (Ne.ite_eq_left_iff (by decide)).mp (h.en.symm.trans hen)

/-- R124: the default frequency needs no wait state, and the target's count is latched before the
high-speed source is selected. -/
theorem State.InOrder.sysclk_timingOk {s : State} (h : s.InOrder) :
    ∃ f, s.sysclkHz = some f ∧ timingOk s.params.wsTable f s.wsAct.toNat = true := by
  refine ⟨_, h.sysclkHz_eq, timingOk_iff.mpr ?_⟩
  split
  case isTrue hsws =>
    have hcode := h.code_of_sw (h.sw_of_switched hsws)
    have hact := h.wsAct_of_code (by omega)
    exact ⟨_, Params.targetLookup h.params, hact.ge⟩
  case isFalse => exact ⟨0, Params.defaultLookup h.params, Nat.zero_le _⟩

/-- Settles O46: the code tells how far the order has come; the source is selected after its wait, and
the timer is started after the switch and the load of its period. -/
theorem hazardsAreRespected : Obligations.HazardsAreRespected := by
  intro s h
  refine ⟨h.sysclk_timingOk, fun hsw => ?_, fun hen => ?_⟩
  · have hcode := h.code_of_sw hsw
    exact h.ready (by omega)
  · have hcode := h.code_of_en hen
    exact ⟨h.switched (by omega), h.period.trans (if_pos (by omega))⟩

end Sys2Proof.Machine

/-! Decoding (spec/30_encoding.md R55 to R62): every id is that of one operation or lies in one of the two
unassigned ranges. -/

namespace Sys2Proof.Machine

open Sys2Proof.Config

/-- An id is an operation's, or it lies in an unassigned range and the decoder refuses it (R58, R62). -/
theorem id_assigned_or_refused : ∀ id : BitVec 5,
    ((∃ i ∈ Instr.all, encode i = id) ∧ ¬ (0x0A ≤ id.toNat ∧ id.toNat ≤ 0x0F) ∧
      ¬ (0x11 ≤ id.toNat ∧ id.toNat ≤ 0x1F)) ∨
    (((0x0A ≤ id.toNat ∧ id.toNat ≤ 0x0F) ∨ (0x11 ≤ id.toNat ∧ id.toNat ≤ 0x1F)) ∧
      (decode id).isOk = false) := by
  decide

theorem isOk_decode_eq_false_iff {id : BitVec 5} :
    (decode id).isOk = false ↔ ∃ e, decode id = .error e := by
  cases decode id <;> simp [Except.isOk, Except.toBool]

theorem decode_eq_ok_iff {id : BitVec 5} {i : Instr} : decode id = .ok i ↔ encode i = id := by
  constructor
  · intro h
    rcases id_assigned_or_refused id with ⟨⟨j, _, rfl⟩, _⟩ | ⟨_, hbad⟩
    · rw [decode_encode] at h
      rw [Except.ok.inj h]
    · rw [h] at hbad
      cases hbad
  · rintro rfl
    exact decode_encode i

theorem decode_error_iff {id : BitVec 5} : (∃ e, decode id = .error e) ↔
    (0x0A ≤ id.toNat ∧ id.toNat ≤ 0x0F) ∨ (0x11 ≤ id.toNat ∧ id.toNat ≤ 0x1F) := by
  rcases id_assigned_or_refused id with ⟨⟨i, _, rfl⟩, hlow, hhigh⟩ | ⟨hrange, hbad⟩
  · rw [decode_encode]
    exact ⟨nofun, fun hrange => (hrange.elim hlow hhigh).elim⟩
  · exact iff_of_true (isOk_decode_eq_false_iff.mp hbad) hrange

theorem decodeBytes_encodeBytes (i : Instr) (rest : List Byte) :
    decodeBytes (encodeBytes i ++ rest) = .ok (i, rest) := by
  have low : ((encode i).setWidth 8).extractLsb' 0 5 = encode i := by cases i <;> rfl
  simp only [encodeBytes, List.singleton_append, decodeBytes, low, decode_encode]

/-- Settles O1: the decoder answers an operation exactly at its id and refuses the two ranges. -/
theorem decodeInvertsEncode : Obligations.DecodeInvertsEncode :=
  ⟨fun _ _ => decode_eq_ok_iff, fun _ => decode_error_iff, decodeBytes_encodeBytes⟩

/-- Settles O2: seven table words, read by the decoder. -/
theorem tableWordsDecode : Obligations.TableWordsDecode := by
  unfold Obligations.TableWordsDecode
  decide

end Sys2Proof.Machine

/-! Every move, case by case (spec/00_scope.md R7, R8; spec/40_status_wait.md R66). One inductive predicate lists
what the step of an agent can be; who adds which event and which mark is read off it. -/

namespace Sys2Proof.Machine

open Sys2Proof.Config

/-! ### What a move can be -/

/-- The state in which a write operation writes: MUX.SEL alone checks the oscillator first (R67, R85). -/
def State.checkedFor (s : State) (i : Instr) : State := if i = .muxSel then s.checkReady else s

/-- The check adds to `faults` alone. -/
theorem State.checkedFor_eq (s : State) (i : Instr) :
    s.checkedFor i = { s with faults := (s.checkedFor i).faults } := by
  unfold State.checkedFor
  split
  · exact s.checkReady_eq
  · rfl

@[simp] theorem State.checkedFor_trace (s : State) (i : Instr) : (s.checkedFor i).trace = s.trace := by
  rw [State.checkedFor_eq]

@[simp] theorem State.checkedFor_params (s : State) (i : Instr) : (s.checkedFor i).params = s.params := by
  rw [State.checkedFor_eq]

/-- The move `m` can take `s` to this state. -/
inductive AgentStep (s : State) : Move → State → Prop where
  /-- A sequencer operation of format W (R67). -/
  | write {i : Instr} {d : WriteAccess} (hcode : encode i = mkId 0#1 s.seqState)
      (hd : access s.params i = .write d) :
      AgentStep s .sequencer ((s.checkedFor i).writeOp (encode i) d)
  /-- A sequencer operation of format P (R68). -/
  | poll {i : Instr} {d : PollAccess} (hcode : encode i = mkId 0#1 s.seqState)
      (hd : access s.params i = .poll d) : AgentStep s .sequencer (s.pollOp (encode i) d)
  /-- IDLE (R92). -/
  | idle (hcode : s.seqState = 9#4) : AgentStep s .sequencer s
  /-- A sequencer code that names no operation (R62). -/
  | illegal (hcode : 10 ≤ s.seqState.toNat) :
      AgentStep s .sequencer (s.raise (.illegalSeqState s.seqState))
  | tick (hpending : s.tickPending = 1#1) : AgentStep s .toggler s.takeTick
  | flashLatch (henabled : s.flashLatchEnabled = true) : AgentStep s .flashController s.flashLatch
  | oscReady (henabled : s.oscReadyEnabled = true) : AgentStep s .oscillator s.oscReady
  | muxSwitch (henabled : s.muxSwitchEnabled = true) : AgentStep s .multiplexer s.muxSwitch
  | tickFire (henabled : s.tickFireEnabled = true) : AgentStep s .tickTimer s.tickFire
  | hostRead (off : BitVec 8) : AgentStep s (.hostRead off) (s.hostRead off)
  | rst : AgentStep s .rst s.applyReset
  /-- An agent other than the sequencer whose step is not enabled. -/
  | disabled {m : Move} (hm : m ≠ .sequencer) (hdisabled : s.enabled m = false) : AgentStep s m s

/-- An agent's step where it is enabled, and the same state elsewhere. -/
theorem AgentStep.ite {s t : State} {m : Move} {enabled : Bool} (hm : m ≠ .sequencer)
    (hen : s.enabled m = enabled) (h : enabled = true → AgentStep s m t) :
    AgentStep s m (if enabled then t else s) := by
  cases enabled with
  | true => exact h rfl
  | false => exact .disabled hm hen

theorem agentStep_of_sequencerMove {s t : State} (h : sequencerMove s = .next t) :
    AgentStep s .sequencer t := by
  have range : ∀ c : BitVec 4, c.toNat ≤ 8 ∨ c = 9#4 ∨ 10 ≤ c.toNat := by decide
  rcases range s.seqState with hle | hidle | hill
  · obtain ⟨i, hi, hcode⟩ := exists_configure_of_code_le s.seqState hle
    rw [sequencerMove_of_encode hcode] at h
    rcases access_of_configure s.params hi with ⟨d, hd⟩ | ⟨d, hd⟩
    · obtain rfl := Host.Outcome.next.inj ((exec_of_access_write hd).symm.trans h)
      exact .write hcode hd
    · obtain rfl := Host.Outcome.next.inj ((exec_of_access_poll hd).symm.trans h)
      exact .poll hcode hd
  · obtain rfl := Host.Outcome.next.inj ((sequencerMove_of_idle hidle).symm.trans h)
    exact .idle hidle
  · obtain rfl := Host.Outcome.next.inj ((sequencerMove_of_illegal hill).symm.trans h)
    exact .illegal hill

/-- The cases of a move are exhaustive. -/
theorem agentStep_of_agentMove {m : Move} {s t : State} (h : agentMove m s = .next t) :
    AgentStep s m t := by
  cases m with
  | sequencer => exact agentStep_of_sequencerMove h
  | toggler =>
    rcases togglerMove_cases s with ⟨hpending, e⟩ | ⟨hpending, e⟩ <;>
      obtain rfl := Host.Outcome.next.inj (e.symm.trans h)
    · exact .tick hpending
    · exact .disabled nofun (beq_eq_false_iff_ne.mpr hpending)
  | flashController => exact Host.Outcome.next.inj h ▸ .ite nofun rfl .flashLatch
  | oscillator => exact Host.Outcome.next.inj h ▸ .ite nofun rfl .oscReady
  | multiplexer => exact Host.Outcome.next.inj h ▸ .ite nofun rfl .muxSwitch
  | tickTimer => exact Host.Outcome.next.inj h ▸ .ite nofun rfl .tickFire
  | hostRead off => exact Host.Outcome.next.inj h ▸ .hostRead off
  | rst => exact Host.Outcome.next.inj h ▸ .rst

theorem agentStep_of_move {m : Move} {s t : State} (h : move m s = .next t) : AgentStep s m t :=
  agentStep_of_agentMove (move_eq_next.mp h).2.2

/-! ### Who adds which event (R32) -/

/-- The agent whose step an event records, or the host's read. -/
def Event.agent : Event → Move
  | .write _ _ _ _ => .sequencer
  | .read _ _ _ => .sequencer
  | .env .flashLatch => .flashController
  | .env .oscReady => .oscillator
  | .env .muxSwitch => .multiplexer
  | .fire => .tickTimer
  | .tgl _ _ _ => .toggler
  | .hostRead off _ => .hostRead off

/-- A move leaves the trace or appends one event, which records that move. -/
theorem AgentStep.appends_event {m : Move} {s t : State} (h : AgentStep s m t) (hm : m ≠ .rst) :
    t.trace = s.trace ∨ ∃ e : Event, e.agent = m ∧ t.trace = s.trace ++ [e] := by
  cases h with
  | write => exact .inr ⟨_, rfl, by rw [State.writeOp_trace, State.checkedFor_trace]⟩
  | poll => exact .inr ⟨_, rfl, s.pollOp_trace _ _⟩
  | tick => exact .inr ⟨_, rfl, s.takeTick_trace⟩
  | flashLatch => exact .inr ⟨_, rfl, s.flashLatch_trace⟩
  | oscReady => exact .inr ⟨_, rfl, s.oscReady_trace⟩
  | muxSwitch => exact .inr ⟨_, rfl, s.muxSwitch_trace⟩
  | tickFire => exact .inr ⟨_, rfl, s.tickFire_trace⟩
  | hostRead off =>
    unfold State.hostRead
    split
    · exact .inr ⟨_, rfl, s.emit_trace _⟩
    · exact .inl (s.raise_trace _)
  | rst => exact absurd rfl hm
  | idle | illegal | disabled => exact .inl rfl

/-! ### Who adds which mark (R105) -/

/-- The row of R105 for a mark that the move `m` adds in `s`: its agent, its condition and its value. -/
def MarkCause (m : Move) (s : State) : Mark → Prop
  | .flashTimingViolation source count =>
    m = .multiplexer ∧ source = s.sw ∧ count = s.wsAct ∧
      ∀ f, s.baseHz s.sw = some f → timingOk s.params.wsTable f s.wsAct.toNat = false
  | .switchBeforeReady code => m = .sequencer ∧ s.seqState = 4#4 ∧ code = s.seqState ∧ s.hsoscRdy = 0#1
  | .tickOverrun count => m = .tickTimer ∧ s.tickPending = 1#1 ∧ count = s.tickCount
  | .illegalSeqState code => m = .sequencer ∧ 10 ≤ s.seqState.toNat ∧ code = s.seqState
  | .reservedAccess site => ∃ off, m = .hostRead off ∧ site = .offset off ∧ s.regRead off = none

/-- The code of an operation the sequencer runs is `seq_state` (R55). -/
theorem code_of_encode {s : State} {i : Instr} (h : encode i = mkId 0#1 s.seqState) :
    s.seqState = idCode (encode i) := by
  rw [h, idCode_mkId]

/-- A move adds no mark, or one mark whose cause holds. -/
theorem AgentStep.adds_mark {m : Move} {s t : State} (h : AgentStep s m t) (hm : m ≠ .rst) :
    t.faults = s.faults ∨ ∃ k, MarkCause m s k ∧ t.faults = (s.raise k).faults := by
  cases h with
  | @write i _ hcode _ =>
    rw [State.writeOp_faults, State.checkedFor]
    split
    case isTrue hi =>
      subst hi
      by_cases hrdy : s.hsoscRdy = 0#1
      · refine .inr ⟨.switchBeforeReady s.seqState, ⟨rfl, code_of_encode hcode, rfl, hrdy⟩, ?_⟩
        rw [State.checkReady, if_pos hrdy]
      · exact .inl (by rw [State.checkReady, if_neg hrdy])
    case isFalse => exact .inl rfl
  | illegal hcode => exact .inr ⟨.illegalSeqState s.seqState, ⟨rfl, hcode, rfl⟩, rfl⟩
  | muxSwitch =>
    rw [State.muxSwitch_faults, State.checkTiming]
    split
    · exact .inl rfl
    case isFalse hbad =>
      refine .inr ⟨.flashTimingViolation s.sw s.wsAct, ⟨rfl, rfl, rfl, fun f hf => ?_⟩, rfl⟩
      rw [← State.timingOkFor_of_baseHz hf, Bool.eq_false_iff.mpr hbad]
  | tickFire =>
    unfold State.tickFire
    split
    case isTrue hpending => exact .inr ⟨.tickOverrun s.tickCount, ⟨rfl, hpending, rfl⟩, rfl⟩
    · exact .inl rfl
  | hostRead off =>
    unfold State.hostRead
    split
    · exact .inl rfl
    case h_2 hnone => exact .inr ⟨.reservedAccess (.offset off), ⟨off, rfl, rfl, hnone⟩, rfl⟩
  | rst => exact absurd rfl hm
  | tick => exact .inl s.takeTick_faults
  | poll | idle | flashLatch | oscReady | disabled => exact .inl rfl

theorem AgentStep.keeps_marks {m : Move} {s t : State} (h : AgentStep s m t) (hm : m ≠ .rst) :
    ∀ k ∈ s.faults, k ∈ t.faults := by
  rcases h.adds_mark hm with e | ⟨j, _, e⟩ <;> rw [e]
  · exact fun _ => id
  · exact fun k hk => (s.mem_raise_faults j k).mpr (.inl hk)

theorem AgentStep.faults_nodup {m : Move} {s t : State} (h : AgentStep s m t) (hm : m ≠ .rst)
    (hnodup : s.faults.Nodup) : t.faults.Nodup := by
  rcases h.adds_mark hm with e | ⟨k, _, e⟩ <;> rw [e]
  · exact hnodup
  · exact s.raise_nodup k hnodup

/-- Settles O40: a move appends at most one event and adds at most one mark. -/
theorem ghostStateOnlyGrows : Obligations.GhostStateOnlyGrows := by
  intro m s t hm h
  have hstep := agentStep_of_move h
  exact ⟨(hstep.appends_event hm).imp_right fun ⟨e, _, he⟩ => ⟨e, he⟩, hstep.keeps_marks hm,
    hstep.faults_nodup hm⟩

/-- A mark that a move adds has its cause; `rst` adds none. -/
theorem AgentStep.markCause {m : Move} {s t : State} (h : AgentStep s m t) {k : Mark}
    (hk : k ∈ t.faults) (hnew : k ∉ s.faults) : MarkCause m s k := by
  by_cases hm : m = .rst
  · subst hm
    cases h with
    | rst => cases hk
    | disabled => exact absurd hk hnew
  rcases h.adds_mark hm with e | ⟨j, hj, e⟩ <;> rw [e] at hk
  · exact absurd hk hnew
  · obtain rfl := ((s.mem_raise_faults j k).mp hk).resolve_left hnew
    exact hj

/-- Settles O41: the causes are the rows of the statement. -/
theorem marksHaveTheirCauses : Obligations.MarksHaveTheirCauses := by
  intro m s t k h hk hnew
  have hcause := (agentStep_of_move h).markCause hk hnew
  cases k <;> exact hcause

end Sys2Proof.Machine

/-! The invariant of the configuration order (spec/10_state.md R34, R35; spec/70_reset_and_hazards.md R122 to
R126, R134). Each update of the state is shown to keep it, naming the fields the update touches; of the marks
only an overrun and a bad host read can occur. -/

namespace Sys2Proof.Machine

open Sys2Proof.Config

/-! ### Reset and the schedule (R38, R120) -/

theorem State.resetWith_inOrder {p : Params} (hp : p.WellFormed) (level : BitVec 1) :
    (State.resetWith p level).InOrder where
  params := hp
  code := (by decide : 0 ≤ 9)
  wsReq := rfl
  wsAct := .inl rfl
  latched := fun (hle : 2 ≤ 0) => absurd hle (by decide)
  hsoscOn := rfl
  readyOn := fun hrdy => absurd hrdy (by decide : ¬ (0#1 = 1#1))
  ready := fun (hle : 4 ≤ 0) => absurd hle (by decide)
  sw := rfl
  sws := .inl rfl
  switched := fun (hle : 6 ≤ 0) => absurd hle (by decide)
  hpre := rfl
  ppre := rfl
  period := rfl
  en := rfl
  hz := (BitVec.toNat_ofNat _ _).trans (Nat.mod_eq_of_lt (Params.defaultRange hp).2)
  pending := fun hpend => absurd hpend (by decide : ¬ (0#1 = 1#1))
  marks := nofun

/-- The invariant does not speak of the model's own schedule, the trace or the toggler's state. -/
theorem State.InOrder.applyReset {s : State} (h : s.InOrder) : s.applyReset.InOrder :=
  { State.resetWith_inOrder h.params (pinResetLevel s.draws) with }

theorem State.InOrder.popMove {s : State} (h : s.InOrder) : s.popMove.InOrder := by
  unfold State.popMove
  split
  · exact { h with }
  · exact { h with }

/-! ### The environment, the toggler and the host -/

theorem State.InOrder.emit {s : State} (h : s.InOrder) (e : Event) : (s.emit e).InOrder := { h with }

theorem State.InOrder.flashLatch {s : State} (h : s.InOrder) : s.flashLatch.InOrder :=
  { h with wsAct := .inr rfl, latched := fun _ => rfl }

theorem State.InOrder.oscReady {s : State} (h : s.InOrder) (henabled : s.oscReadyEnabled = true) :
    s.oscReady.InOrder :=
  { h with readyOn := fun _ => (s.oscReadyEnabled_iff.mp henabled).2.1, ready := fun _ => rfl }

/-- Whichever source is wanted, the latched count is enough for it: no mark comes from a switch (R124). -/
theorem State.InOrder.timingOkFor_sw {s : State} (h : s.InOrder) : s.timingOkFor s.sw = true := by
  by_cases hcode : 5 ≤ s.seqState.toNat
  · have hsw : s.sw = 1#2 := h.sw.trans (if_pos hcode)
    rw [hsw, State.timingOkFor_of_baseHz s.baseHz_one]
    exact timingOk_iff.mpr ⟨_, Params.targetLookup h.params, (h.wsAct_of_code (by omega)).ge⟩
  · have hsw : s.sw = 0#2 := h.sw.trans (if_neg hcode)
    rw [hsw, State.timingOkFor_of_baseHz s.baseHz_zero]
    exact timingOk_iff.mpr ⟨0, Params.defaultLookup h.params, Nat.zero_le _⟩

theorem State.InOrder.muxSwitch {s : State} (h : s.InOrder) : s.muxSwitch.InOrder := by
  rw [State.muxSwitch, s.checkTiming_of_ok h.timingOkFor_sw]
  exact { h with
    sws := .inr rfl
    switched := fun hcode => h.sw.trans (if_pos (Nat.le_of_succ_le hcode)) }

/-- A mark the invariant allows may be added. -/
theorem State.InOrder.raise {s : State} (h : s.InOrder) {k : Mark}
    (hk : (∃ c, k = .tickOverrun c) ∨ ∃ off, k = .reservedAccess (.offset off) ∧ Reg.ofOffset off = none) :
    (s.raise k).InOrder :=
  { h with
    marks := fun j hj => ((s.mem_raise_faults k j).mp hj).elim (h.marks j) fun e => e ▸ hk }

theorem State.InOrder.tickFire {s : State} (h : s.InOrder) (henabled : s.tickFireEnabled = true) :
    s.tickFire.InOrder := by
  unfold State.tickFire
  split
  · exact (h.raise (.inl ⟨_, rfl⟩)).emit _
  · exact { h with pending := fun _ => s.tickFireEnabled_iff.mp henabled }

theorem State.InOrder.takeTick {s : State} (h : s.InOrder) : s.takeTick.InOrder := by
  rw [State.takeTick_eq]
  exact { h with pending := fun hpend => absurd hpend (by decide : ¬ (0#1 = 1#1)) }

theorem State.regRead_eq_none_iff (s : State) (off : BitVec 8) :
    s.regRead off = none ↔ Reg.ofOffset off = none := Option.map_eq_none_iff

theorem State.InOrder.hostRead {s : State} (h : s.InOrder) (off : BitVec 8) : (s.hostRead off).InOrder := by
  unfold State.hostRead
  split
  · exact h.emit _
  case h_2 hnone => exact h.raise (.inr ⟨off, rfl, (s.regRead_eq_none_iff off).mp hnone⟩)

/-! ### The sequencer, code by code (R77 to R91)

The request field of an operation takes its value in the step that passes the code, and an awaited status
holds in the step that passes its wait. -/

section
variable {s : State} {tr : List Event} {latch : Option Word}

theorem State.InOrder.fwsSet (h : State.InOrder { s with seqState := 0#4 }) :
    State.InOrder { s with
      wsReq := BitVec.ofNat 3 s.params.flashWaitCycles, seqState := 1#4, trace := tr } :=
  { h with
    code := (by decide : 1 ≤ 9)
    wsReq := (BitVec.toNat_ofNat _ _).trans
      (Nat.mod_eq_of_lt (Nat.lt_succ_of_le (Params.flashWaitCycles_le h.params)))
    wsAct := .inl (h.wsAct.elim id fun e => e.trans (BitVec.eq_of_toNat_eq h.wsReq))
    latched := fun (hle : 2 ≤ 1) => absurd hle (by decide)
    ready := fun (hle : 4 ≤ 1) => absurd hle (by decide)
    switched := fun (hle : 6 ≤ 1) => absurd hle (by decide) }

theorem State.InOrder.fwsWait (h : State.InOrder { s with seqState := 1#4 }) {sees : Bool}
    (hsees : sees = true → s.wsAct = s.wsReq) :
    State.InOrder { s with rdLatch := latch, trace := tr, seqState := if sees then 2#4 else 1#4 } := by
  cases sees with
  | false => exact { h with }
  | true => exact { h with
      code := (by decide : 2 ≤ 9)
      latched := fun _ => hsees rfl
      ready := fun (hle : 4 ≤ 2) => absurd hle (by decide)
      switched := fun (hle : 6 ≤ 2) => absurd hle (by decide) }

theorem State.InOrder.oscOn (h : State.InOrder { s with seqState := 2#4 }) :
    State.InOrder { s with hsoscOn := 1#1, seqState := 3#4, trace := tr } :=
  { h with
    code := (by decide : 3 ≤ 9)
    latched := fun _ => h.latched (by decide : 2 ≤ 2)
    hsoscOn := rfl
    readyOn := fun _ => rfl
    ready := fun (hle : 4 ≤ 3) => absurd hle (by decide)
    switched := fun (hle : 6 ≤ 3) => absurd hle (by decide) }

theorem State.InOrder.oscWait (h : State.InOrder { s with seqState := 3#4 }) {sees : Bool}
    (hsees : sees = true → s.hsoscRdy = 1#1) :
    State.InOrder { s with rdLatch := latch, trace := tr, seqState := if sees then 4#4 else 3#4 } := by
  cases sees with
  | false => exact { h with }
  | true => exact { h with
      code := (by decide : 4 ≤ 9)
      latched := fun _ => h.latched (by decide : 2 ≤ 3)
      ready := fun _ => hsees rfl
      switched := fun (hle : 6 ≤ 4) => absurd hle (by decide) }

theorem State.InOrder.muxSel (h : State.InOrder { s with seqState := 4#4 }) :
    State.InOrder { s with sw := 1#2, hpre := 0#4, ppre := 0#3, seqState := 5#4, trace := tr } :=
  { h with
    code := (by decide : 5 ≤ 9)
    latched := fun _ => h.latched (by decide : 2 ≤ 4)
    ready := fun _ => h.ready (by decide : 4 ≤ 4)
    sw := rfl
    sws := .inl (h.sws.elim id fun e => e.trans h.sw)
    switched := fun (hle : 6 ≤ 5) => absurd hle (by decide)
    hpre := rfl
    ppre := rfl }

theorem State.InOrder.muxWait (h : State.InOrder { s with seqState := 5#4 }) {sees : Bool}
    (hsees : sees = true → s.sws = 1#2) :
    State.InOrder { s with rdLatch := latch, trace := tr, seqState := if sees then 6#4 else 5#4 } := by
  cases sees with
  | false => exact { h with }
  | true => exact { h with
      code := (by decide : 6 ≤ 9)
      latched := fun _ => h.latched (by decide : 2 ≤ 5)
      ready := fun _ => h.ready (by decide : 4 ≤ 5)
      switched := fun _ => hsees rfl }

theorem State.InOrder.tickLoad (h : State.InOrder { s with seqState := 6#4 }) :
    State.InOrder { s with
      period := BitVec.ofNat 24 s.params.tickPeriodCycles, seqState := 7#4, trace := tr } :=
  { h with
    code := (by decide : 7 ≤ 9)
    latched := fun _ => h.latched (by decide : 2 ≤ 6)
    ready := fun _ => h.ready (by decide : 4 ≤ 6)
    switched := fun _ => h.switched (by decide : 6 ≤ 6)
    period := (BitVec.toNat_ofNat _ _).trans (Nat.mod_eq_of_lt (Params.periodRange h.params).2) }

theorem State.InOrder.tickEn (h : State.InOrder { s with seqState := 7#4 }) :
    State.InOrder { s with en := 1#1, seqState := 8#4, trace := tr } :=
  { h with
    code := (by decide : 8 ≤ 9)
    latched := fun _ => h.latched (by decide : 2 ≤ 7)
    ready := fun _ => h.ready (by decide : 4 ≤ 7)
    switched := fun _ => h.switched (by decide : 6 ≤ 7)
    en := rfl
    pending := fun _ => rfl }

theorem State.InOrder.freqRec (h : State.InOrder { s with seqState := 8#4 }) :
    State.InOrder { s with hz := BitVec.ofNat 32 s.params.targetHz, seqState := 9#4, trace := tr } :=
  { h with
    code := (by decide : 9 ≤ 9)
    latched := fun _ => h.latched (by decide : 2 ≤ 8)
    ready := fun _ => h.ready (by decide : 4 ≤ 8)
    switched := fun _ => h.switched (by decide : 6 ≤ 8)
    hz := (BitVec.toNat_ofNat _ _).trans (Nat.mod_eq_of_lt (Params.targetRange h.params).2) }

end
/-- In a known code the invariant's clauses speak of that number. -/
theorem State.InOrder.withCode {s : State} (h : s.InOrder) {c : BitVec 4} (hc : s.seqState = c) :
    State.InOrder { s with seqState := c } := hc ▸ h

/-- The write operations; the check of MUX.SEL finds the oscillator ready and adds no mark (R85). -/
theorem State.InOrder.exec_write {s t : State} (h : s.InOrder) {i : Instr} {d : WriteAccess}
    (hcode : encode i = mkId 0#1 s.seqState) (hd : access s.params i = .write d)
    (ht : exec i s = .next t) : t.InOrder := by
  have hc := h.withCode (code_of_encode hcode)
  cases i with
  | fwsSet => exact Host.Outcome.next.inj ((exec_fwsSet s).symm.trans ht) ▸ hc.fwsSet
  | oscOn => exact Host.Outcome.next.inj ((exec_oscOn s).symm.trans ht) ▸ hc.oscOn
  | muxSel =>
    rw [exec_muxSel, s.checkReady_faults_of_ready (hc.ready (by decide : 4 ≤ 4))] at ht
    exact Host.Outcome.next.inj ht ▸ hc.muxSel
  | tickLoad => exact Host.Outcome.next.inj ((exec_tickLoad s).symm.trans ht) ▸ hc.tickLoad
  | tickEn => exact Host.Outcome.next.inj ((exec_tickEn s).symm.trans ht) ▸ hc.tickEn
  | freqRec => exact Host.Outcome.next.inj ((exec_freqRec s).symm.trans ht) ▸ hc.freqRec
  | fwsWait | oscWait | muxWait | idle | tglTick => cases hd

/-- The waits; each passes only when its status holds (R68). -/
theorem State.InOrder.pollOp {s : State} (h : s.InOrder) {i : Instr} {d : PollAccess}
    (hcode : encode i = mkId 0#1 s.seqState) (hd : access s.params i = .poll d) :
    (s.pollOp (encode i) d).InOrder := by
  have hc := h.withCode (code_of_encode hcode)
  cases i with
  | fwsWait =>
    cases hd
    refine hc.fwsWait fun hsees => BitVec.eq_of_toNat_eq ?_
    exact ((sees_fwsWait s _ (Params.flashWaitCycles_le h.params)).mp hsees).trans hc.wsReq.symm
  | oscWait =>
    cases hd
    exact hc.oscWait (sees_oscWait s).mp
  | muxWait =>
    cases hd
    exact hc.muxWait (sees_muxWait s).mp
  | fwsSet | oscOn | muxSel | tickLoad | tickEn | freqRec | idle | tglTick => cases hd

/-- Every case of a move keeps the order; the codes without an operation (R62) do not occur in it. -/
theorem State.InOrder.agentStep {m : Move} {s t : State} (h : s.InOrder) (hstep : AgentStep s m t) :
    t.InOrder := by
  cases hstep with
  | write hcode hd => exact h.exec_write hcode hd (exec_of_access_write hd)
  | poll hcode hd => exact h.pollOp hcode hd
  | idle => exact h
  | illegal hcode => exact absurd h.code (by omega)
  | tick => exact h.takeTick
  | flashLatch => exact h.flashLatch
  | oscReady henabled => exact h.oscReady henabled
  | muxSwitch => exact h.muxSwitch
  | tickFire henabled => exact h.tickFire henabled
  | hostRead off => exact h.hostRead off
  | rst => exact h.applyReset
  | disabled => exact h

/-! ### No field holds a reserved value (R63) -/

theorem State.mem_reservedFields {s : State} {f : RegField} : f ∈ s.reservedFields ↔ s.HoldsReserved f := by
  simp only [State.reservedFields, List.mem_append, List.mem_ite_nil_left, List.mem_ite_nil_right,
    List.mem_singleton]
  cases f with
  | wsReq => simp [State.HoldsReserved, -Prod.exists, -Prod.forall]
  | sw | sws => simp [State.HoldsReserved, Nat.lt_iff_add_one_le]
  | _ => simp [State.HoldsReserved]

theorem State.reservedFields_eq_nil_iff {s : State} :
    s.reservedFields = [] ↔ ∀ f, ¬ s.HoldsReserved f := by
  simp only [List.eq_nil_iff_forall_not_mem, State.mem_reservedFields]

theorem State.InOrder.not_holdsReserved {s : State} (h : s.InOrder) (f : RegField) : ¬ s.HoldsReserved f := by
  have source : ∀ c : BitVec 2, c = 0#2 ∨ c = 1#2 → ¬ 2 ≤ c.toNat := by decide
  cases f with
  | wsReq =>
    have hrow : ∃ row ∈ s.params.wsTable, row.2 = s.wsReq.toNat := by
      rw [h.wsReq]
      split
      · exact Params.flashWaitCycles_mem h.params
      · exact Params.zero_mem h.params
    obtain ⟨row, hmem, heq⟩ := hrow
    exact fun hres => hres row hmem heq
  | sw =>
    refine source s.sw ?_
    rw [h.sw]
    split
    · exact .inr rfl
    · exact .inl rfl
  | sws => exact source s.sws h.sws_eq_zero_or_one
  | hpre => exact fun hres => hres h.hpre
  | ppre => exact fun hres => hres h.ppre
  | period =>
    rintro ⟨hen, hzero⟩
    have hperiod : s.period.toNat = s.params.tickPeriodCycles :=
      h.period.trans (if_pos (Nat.le_of_succ_le (h.code_of_en hen)))
    have hpos := (Params.periodRange h.params).1
    rw [hzero] at hperiod
    exact absurd (hpos.trans_eq hperiod.symm) (by decide)
  | wsAct | hsoscOn | hsoscRdy | en | hz | bs | br | out => exact id

theorem State.InOrder.runs {s : State} (h : s.InOrder) : s.Runs :=
  ⟨h.params, State.reservedFields_eq_nil_iff.mpr h.not_holdsReserved⟩

/-- Settles O45: a state in order holds no reserved value, so the move is its agent's step, which completes
and keeps the order. -/
theorem stepsStayInOrder : Obligations.StepsStayInOrder := by
  intro s h
  obtain ⟨t, ht⟩ := agentMove_next s.nextMove s.popMove
  exact ⟨t, (h.popMove.runs.move_eq _).trans ht, h.popMove.agentStep (agentStep_of_agentMove ht)⟩

/-! ### The completed configuration (R34, R134) -/

theorem State.cfgDone_iff (s : State) : s.cfgDone = true ↔ s.seqState = 9#4 := beq_iff_eq

/-- Settles O49: in code 9 every operation has been passed, so every field has its last value. -/
theorem doneMeansComplete : Obligations.DoneMeansComplete := by
  intro s h hdone
  have hc := h.withCode (s.cfgDone_iff.mp hdone)
  have hlatched : s.wsAct = s.wsReq := hc.latched (by decide : 2 ≤ 9)
  have hready : s.hsoscRdy = 1#1 := hc.ready (by decide : 4 ≤ 9)
  have hswitched : s.sws = 1#2 := hc.switched (by decide : 6 ≤ 9)
  have hcomplete : s.Complete :=
    { done := hdone, wsReq := hc.wsReq, wsAct := hlatched ▸ hc.wsReq, hsoscOn := hc.hsoscOn
      hsoscRdy := hready, sw := hc.sw, sws := hswitched, hpre := h.hpre, ppre := h.ppre
      period := hc.period, en := hc.en, hz := hc.hz }
  exact ⟨hcomplete, beq_iff_eq.mpr hlatched, beq_iff_eq.mpr hready, beq_iff_eq.mpr hswitched⟩

/-- Settles O42: in code 9 the sequencer idles, and no other agent owns a field of the configuration. -/
theorem configurationStaysDone : Obligations.ConfigurationStaysDone := by
  intro m s t hdone hm h
  by_cases hseq : m = .sequencer
  · subst hseq
    obtain ⟨_, _, hstep⟩ := move_eq_next.mp h
    obtain rfl := Host.Outcome.next.inj ((sequencerMove_of_idle (s.cfgDone_iff.mp hdone)).symm.trans hstep)
    exact ⟨⟨rfl, rfl, rfl, rfl, rfl, rfl, rfl, rfl⟩, hdone⟩
  · obtain ⟨_, hown, _⟩ := onlyOwnersWrite m s t hm h
    have same := hown hseq
    exact ⟨⟨same.wsReq, same.hsoscOn, same.sw, same.hpre, same.ppre, same.en, same.period, same.hz⟩,
      (t.cfgDone_iff).mpr (same.seqState.trans (s.cfgDone_iff.mp hdone))⟩

end Sys2Proof.Machine

/-! The trace tells the sequencer's progress (spec/10_state.md R34; spec/40_status_wait.md R67, R68, R70). One
event moves the replay by the operation with the code reached, or not at all; what a trace that reaches a code
must hold follows by induction over the trace. -/

namespace Sys2Proof.Machine

open Sys2Proof.Config

/-! ### Replaying one event -/

theorem toNat_mkId_sequencer : ∀ c : BitVec 4, (mkId 0#1 c).toNat = c.toNat := by
  decide

theorem replayEvent_write {p : Params} {i : Instr} {d : WriteAccess} (hd : access p i = .write d) :
    replayEvent p (encode i).toNat (.write (encode i) d.reg.offset d.wmask d.data) =
      some ((encode i).toNat + 1) := by
  simp [replayEvent, decode_encode, hd]

theorem replayEvent_poll {p : Params} {i : Instr} {d : PollAccess} (hd : access p i = .poll d) (v : Word) :
    replayEvent p (encode i).toNat (.read (encode i) d.reg.offset v) =
      some (if d.sees v then (encode i).toNat + 1 else (encode i).toNat) := by
  cases hsees : d.sees v <;> simp [replayEvent, decode_encode, hd, hsees]

/-- Events of the other agents and of the host say nothing of the sequencer. -/
theorem replayEvent_of_agent_ne {p : Params} {c : Nat} {e : Event} (he : e.agent ≠ .sequencer) :
    replayEvent p c e = some c := by
  cases e with
  | write | read => exact absurd rfl he
  | env | fire | tgl | hostRead => rfl

/-- What an event is that the replay accepts in code `c`, and the code it leads to. -/
inductive ReplayStep (p : Params) (c : Nat) : Event → Nat → Prop where
  | write {i : Instr} {d : WriteAccess} (hcode : (encode i).toNat = c) (hd : access p i = .write d) :
      ReplayStep p c (.write (encode i) d.reg.offset d.wmask d.data) (c + 1)
  | pass {i : Instr} {d : PollAccess} {v : Word} (hcode : (encode i).toNat = c)
      (hd : access p i = .poll d) (hsees : d.sees v = true) :
      ReplayStep p c (.read (encode i) d.reg.offset v) (c + 1)
  | stay {e : Event} (hwrite : ∀ op, e.isWriteBy op = false) : ReplayStep p c e c

theorem replayStep_of_eq {p : Params} {c c' : Nat} {e : Event} (h : replayEvent p c e = some c') :
    ReplayStep p c e c' := by
  cases e with
  | write op off m d =>
    cases hdec : decode op with
    | error => simp [replayEvent, hdec] at h
    | ok i =>
      obtain rfl := decode_eq_ok_iff.mp hdec
      cases hacc : access p i with
      | write a =>
        obtain ⟨⟨hcode, rfl, rfl, rfl⟩, rfl⟩ := by simpa [replayEvent, hdec, hacc] using h
        exact .write hcode hacc
      | poll | none | handler => simp [replayEvent, hdec, hacc] at h
  | read op off v =>
    cases hdec : decode op with
    | error => simp [replayEvent, hdec] at h
    | ok i =>
      obtain rfl := decode_eq_ok_iff.mp hdec
      cases hacc : access p i with
      | poll a =>
        cases hsees : a.sees v with
        | true =>
          obtain ⟨⟨hcode, rfl⟩, rfl⟩ := by simpa [replayEvent, hdec, hacc, hsees] using h
          exact .pass hcode hacc hsees
        | false =>
          obtain ⟨_, rfl⟩ := by simpa [replayEvent, hdec, hacc, hsees] using h
          exact .stay fun _ => rfl
      | write | none | handler => simp [replayEvent, hdec, hacc] at h
  | env | fire | tgl | hostRead =>
    obtain rfl := Option.some.inj h
    exact .stay fun _ => rfl

/-! ### Replaying a trace -/

theorem replay_append_singleton (p : Params) (tr : List Event) (e : Event) :
    replay p (tr ++ [e]) = (replay p tr).bind fun c => replayEvent p c e := by
  simp [replay, List.foldl_append]

/-- The trace of `t` tells the code when the one event it has gained leads there. -/
theorem State.TraceTellsCode.of_event {s t : State} {e : Event} (h : s.TraceTellsCode)
    (hparams : t.params = s.params) (htrace : t.trace = s.trace ++ [e])
    (he : replayEvent s.params s.seqState.toNat e = some t.seqState.toNat) : t.TraceTellsCode := by
  rw [State.TraceTellsCode] at h ⊢
  rw [hparams, htrace, replay_append_singleton, h, Option.bind_some, he]

theorem State.TraceTellsCode.of_same {s t : State} (h : s.TraceTellsCode) (hparams : t.params = s.params)
    (htrace : t.trace = s.trace) (hcode : t.seqState = s.seqState) : t.TraceTellsCode := by
  rw [State.TraceTellsCode, hparams, htrace, hcode]
  exact h

/-- An operation with a register access has a code below 9, so `seq_state` goes on without wrapping. -/
theorem toNat_idCode_succ {p : Params} {i : Instr} (hnone : access p i ≠ .none)
    (hhandler : access p i ≠ .handler) : (idCode (encode i) + 1).toNat = (encode i).toNat + 1 := by
  cases i with
  | idle => exact absurd rfl hnone
  | tglTick => exact absurd rfl hhandler
  | _ => rfl

theorem toNat_encode_of_code {s : State} {i : Instr} (hcode : encode i = mkId 0#1 s.seqState) :
    (encode i).toNat = s.seqState.toNat := by
  rw [hcode, toNat_mkId_sequencer]

/-- Each event of the sequencer is the one its code may emit, and the replay goes where the sequencer does
(R67, R68). -/
theorem State.TraceTellsCode.sequencerStep {s t : State} (h : s.TraceTellsCode)
    (hstep : AgentStep s .sequencer t) : t.TraceTellsCode := by
  cases hstep with
  | @write i d hcode hd =>
    have hnext := toNat_idCode_succ (p := s.params) (i := i) (hd ▸ nofun) (hd ▸ nofun)
    refine h.of_event (by simp) (by rw [State.writeOp_trace, State.checkedFor_trace]) ?_
    rw [← toNat_encode_of_code hcode, replayEvent_write hd, State.writeOp_seqState, hnext]
  | @poll i d hcode hd =>
    have hnext := toNat_idCode_succ (p := s.params) (i := i) (hd ▸ nofun) (hd ▸ nofun)
    refine h.of_event rfl (s.pollOp_trace _ _) ?_
    rw [← toNat_encode_of_code hcode, replayEvent_poll hd, State.pollOp_seqState]
    split
    · rw [hnext]
    · rw [toNat_encode_of_code hcode, code_of_encode hcode]
  | idle => exact h
  | illegal => exact h.of_same rfl rfl rfl
  | disabled hm => exact absurd rfl hm

theorem State.TraceTellsCode.agentMove {m : Move} {s t : State} (h : s.TraceTellsCode)
    (hmove : agentMove m s = .next t) : t.TraceTellsCode := by
  by_cases hrst : m = .rst
  · subst hrst
    obtain rfl := Host.Outcome.next.inj hmove
    rfl
  by_cases hseq : m = .sequencer
  · subst hseq
    exact h.sequencerStep (agentStep_of_agentMove hmove)
  have own := agentMove_onlyOwnerWrote hrst hmove
  have hcode : t.seqState = s.seqState := (own.sequencer hseq).seqState
  rcases (agentStep_of_agentMove hmove).appends_event hrst with htrace | ⟨e, rfl, htrace⟩
  · exact h.of_same own.model.params htrace hcode
  · exact h.of_event own.model.params htrace (hcode ▸ replayEvent_of_agent_ne hseq)

/-- Settles O50: the schedule is no part of the statement, and each move appends an event that takes the
replay where the move takes `seq_state`. -/
theorem traceKeepsTellingCode : Obligations.TraceKeepsTellingCode := by
  intro s t h hstep
  have hpop : s.popMove.TraceTellsCode := h.of_same s.popMove_params s.popMove_trace s.popMove_seqState
  exact hpop.agentMove (move_eq_next.mp hstep).2.2

/-! ### What a trace that reaches a code holds -/

/-- The replay of a trace from code `c`. -/
def replayFrom (p : Params) (c : Nat) (tr : List Event) : Option Nat :=
  tr.foldl (fun code e => code.bind fun k => replayEvent p k e) (some c)

theorem replayFrom_zero (p : Params) (tr : List Event) : replayFrom p 0 tr = replay p tr := rfl

theorem replayFrom_cons (p : Params) (c : Nat) (e : Event) (tr : List Event) :
    replayFrom p c (e :: tr) = (replayEvent p c e).bind fun k => replayFrom p k tr := by
  have stuck : tr.foldl (fun code e => code.bind fun k => replayEvent p k e) none = none := by
    induction tr with
    | nil => rfl
    | cons _ _ ih => exact ih
  rw [replayFrom, List.foldl_cons, Option.bind_some]
  cases replayEvent p c e with
  | none => exact stuck
  | some k => rfl

/-- Where the replay gets past code `c`, one event takes it from `c` to `c + 1`. -/
theorem exists_event_passing {p : Params} {tr : List Event} {c c' : Nat} (hlt : c < c')
    (h : replayFrom p c tr = some c') :
    ∃ before e after, tr = before ++ e :: after ∧ ReplayStep p c e (c + 1) ∧
      replayFrom p (c + 1) after = some c' := by
  induction tr with
  | nil => exact absurd (Option.some.inj h) hlt.ne
  | cons e tr ih =>
    rw [replayFrom_cons, Option.bind_eq_some_iff] at h
    obtain ⟨k, hk, hrest⟩ := h
    have hstep := replayStep_of_eq hk
    have hcode : k = c ∨ k = c + 1 := by
      cases hstep with
      | write | pass => exact .inr rfl
      | stay => exact .inl rfl
    rcases hcode with rfl | rfl
    · obtain ⟨before, f, after, rfl, hf, hafter⟩ := ih hrest
      exact ⟨e :: before, f, after, rfl, hf, hafter⟩
    · exact ⟨[], e, tr, rfl, hstep, hrest⟩

theorem encode_injective {i j : Instr} (h : (encode i).toNat = (encode j).toNat) : i = j :=
  Except.ok.inj ((decode_encode i).symm.trans (BitVec.eq_of_toNat_eq h ▸ decode_encode j))

section
variable {p : Params} {i : Instr} {e : Event}

/-- The event that passes the code of a write operation is its write (R67). -/
theorem ReplayStep.eq_write {d : WriteAccess} (hd : access p i = .write d)
    (h : ReplayStep p (encode i).toNat e ((encode i).toNat + 1)) :
    e = .write (encode i) d.reg.offset d.wmask d.data := by
  generalize hc : (encode i).toNat + 1 = c' at h
  cases h with
  | write hcode hacc =>
    obtain rfl := encode_injective hcode
    obtain rfl := Access.write.inj (hacc.symm.trans hd)
    rfl
  | pass hcode hacc =>
    obtain rfl := encode_injective hcode
    rw [hd] at hacc
    cases hacc
  | stay => omega

/-- The event that passes the code of a wait is a read of the awaited value (R68). -/
theorem ReplayStep.eq_read {d : PollAccess} (hd : access p i = .poll d)
    (h : ReplayStep p (encode i).toNat e ((encode i).toNat + 1)) :
    ∃ v, e = .read (encode i) d.reg.offset v ∧ d.sees v = true := by
  generalize hc : (encode i).toNat + 1 = c' at h
  cases h with
  | write hcode hacc =>
    obtain rfl := encode_injective hcode
    rw [hd] at hacc
    cases hacc
  | pass hcode hacc hsees =>
    obtain rfl := encode_injective hcode
    obtain rfl := Access.poll.inj (hacc.symm.trans hd)
    exact ⟨_, rfl, hsees⟩
  | stay => omega

end

/-- The word that shows a poll of one field its awaited value holds that value in the field (R59, R68). -/
theorem RegField.extractLsb'_of_sees {f : RegField} {n : Nat} {v : Word} (hf : f.lo + f.width ≤ 32)
    (h : PollAccess.sees ⟨f.reg, f.mask, f.word n⟩ v = true) :
    v.extractLsb' f.lo f.width = BitVec.ofNat f.width n := by
  have hword : v &&& f.mask = f.word n := beq_iff_eq.mp h
  apply BitVec.eq_of_getLsbD_eq
  intro b hb
  have hmask : f.mask.getLsbD (f.lo + b) = true := by
    rw [f.getLsbD_mask (by omega)]
    exact covers_iff.mpr ⟨rfl, by omega, by omega⟩
  have hbit := congrArg (fun w => w.getLsbD (f.lo + b)) hword
  simp only [BitVec.getLsbD_and, hmask, Bool.and_true, RegField.word, BitVec.getLsbD_shiftLeft,
    BitVec.getLsbD_ofNat] at hbit
  have hlt : f.lo + b < 32 := by omega
  rw [BitVec.getLsbD_extractLsb', hbit, BitVec.getLsbD_ofNat]
  simp [hb, hlt, show b < 32 by omega]

/-- Settles O51: the replay passes the codes 0 to 5 one after another, each by the event of its operation. -/
theorem doneTraceHasThePolls : Obligations.DoneTraceHasThePolls := by
  intro s hp h hdone
  have h0 : replayFrom s.params 0 s.trace = some 9 := by
    rw [replayFrom_zero, h, s.cfgDone_iff.mp hdone]
    rfl
  obtain ⟨a, e0, _, htrace, hset, h1⟩ := exists_event_passing (by decide) h0
  obtain ⟨b, e1, _, rfl, hlatched, h2⟩ := exists_event_passing (by decide) h1
  obtain ⟨c, e2, _, rfl, hon, h3⟩ := exists_event_passing (by decide) h2
  obtain ⟨d, e3, _, rfl, hready, h4⟩ := exists_event_passing (by decide) h3
  obtain ⟨e, e4, _, rfl, hsel, h5⟩ := exists_event_passing (by decide) h4
  obtain ⟨f, e5, g, rfl, hswitched, _⟩ := exists_event_passing (by decide) h5
  obtain rfl := ReplayStep.eq_write (i := .fwsSet) rfl hset
  obtain ⟨v1, rfl, hv1⟩ := ReplayStep.eq_read (i := .fwsWait) rfl hlatched
  obtain rfl := ReplayStep.eq_write (i := .oscOn) rfl hon
  obtain ⟨v2, rfl, hv2⟩ := ReplayStep.eq_read (i := .oscWait) rfl hready
  obtain rfl := ReplayStep.eq_write (i := .muxSel) rfl hsel
  obtain ⟨v3, rfl, hv3⟩ := ReplayStep.eq_read (i := .muxWait) rfl hswitched
  have hcount := RegField.extractLsb'_of_sees (f := .wsAct) (by decide) hv1
  have hbit := RegField.extractLsb'_of_sees (f := .hsoscRdy) (by decide) hv2
  have hsource := RegField.extractLsb'_of_sees (f := .sws) (by decide) hv3
  refine ⟨a, b, c, d, e, f, g, v1, v2, v3, _, _, _, _, _, _, htrace, ?_, ?_, hsource⟩
  · exact (congrArg BitVec.toNat hcount).trans
      (Nat.mod_eq_of_lt (Nat.lt_succ_of_le (Params.flashWaitCycles_le hp)))
  · simpa [RegField.lo, RegField.width] using congrArg (fun w => w.getLsbD 0) hbit

/-! ### Each write once -/

/-- One write event of an operation stands in the trace once its code has been passed, and none before. -/
theorem countP_isWriteBy_of_replay {p : Params} {i : Instr} {d : WriteAccess} (hd : access p i = .write d)
    {tr : List Event} {c : Nat} (h : replay p tr = some c) :
    tr.countP (Event.isWriteBy (encode i)) = if (encode i).toNat < c then 1 else 0 := by
  induction tr using List.reverseRecOn generalizing c with
  | nil =>
    obtain rfl := Option.some.inj h
    rfl
  | append_singleton tr e ih =>
    rw [replay_append_singleton, Option.bind_eq_some_iff] at h
    obtain ⟨k, hk, he⟩ := h
    rw [List.countP_append, List.countP_singleton, ih hk]
    cases replayStep_of_eq he with
    | @write j _ hcode hacc =>
      by_cases hij : j = i
      · subst hij
        simp [Event.isWriteBy, hcode]
      · have hne : (encode i).toNat ≠ k := fun heq => hij (encode_injective (hcode.trans heq.symm))
        have hop : encode j ≠ encode i := fun heq => hij (encode_injective (congrArg BitVec.toNat heq))
        have hiff : (encode i).toNat < k + 1 ↔ (encode i).toNat < k := by omega
        rw [if_congr hiff rfl rfl]
        simp [Event.isWriteBy, hop]
    | @pass j _ _ hcode hacc =>
      have hne : (encode i).toNat ≠ k := by
        intro heq
        obtain rfl := encode_injective (heq.trans hcode.symm)
        rw [hd] at hacc
        cases hacc
      have hiff : (encode i).toNat < k + 1 ↔ (encode i).toNat < k := by omega
      rw [if_congr hiff rfl rfl]
      simp [Event.isWriteBy]
    | stay hwrite => simp [hwrite]

/-- Settles O52: by induction over the trace, each write operation writes in the event that passes its
code. -/
theorem eachWriteOnce : Obligations.EachWriteOnce :=
  fun _ _ _ h hd => countP_isWriteBy_of_replay hd h

end Sys2Proof.Machine

/-! Firings, serviced ticks and the output (spec/43_tick_timer.md R94; spec/44_toggler.md R98;
spec/70_reset_and_hazards.md R127), and the reset state (spec/10_state.md R38). An event records its agent, so
a count of events of one kind changes in the moves of one agent only. -/

namespace Sys2Proof.Machine

open Sys2Proof.Config

theorem Event.agent_of_isTick {e : Event} (h : e.isTick = true) : e.agent = .toggler := by
  cases e with
  | tgl => rfl
  | _ => cases h

theorem Event.agent_of_isToggle {e : Event} (h : e.isToggle = true) : e.agent = .toggler := by
  cases e with
  | tgl => rfl
  | _ => cases h

theorem Event.agent_of_isFire {e : Event} (h : e.isFire = true) : e.agent = .tickTimer := by
  cases e with
  | fire => rfl
  | _ => cases h

/-- A move adds no event of a kind that another agent's steps record. -/
theorem AgentStep.countP_trace {m a : Move} {s t : State} {kind : Event → Bool}
    (hkind : ∀ {e}, kind e = true → e.agent = a) (h : AgentStep s m t) (hm : m ≠ .rst) (ha : m ≠ a) :
    t.trace.countP kind = s.trace.countP kind := by
  rcases h.appends_event hm with htrace | ⟨e, rfl, htrace⟩ <;> rw [htrace]
  have hno : kind e = false := Bool.eq_false_iff.mpr fun he => ha (hkind he)
  simp [hno]

/-! ### No tick before the timer is enabled (R54, R94) -/

/-- An operation's write sets `EN` or leaves it (R60, R90). -/
theorem State.writeReg_access_en {s : State} {p : Params} {i : Instr} {d : WriteAccess}
    (hd : access p i = .write d) :
    (s.writeReg .sequencer d.reg d.wmask d.data).en = s.en ∨
      (s.writeReg .sequencer d.reg d.wmask d.data).en = 1#1 := by
  cases i with
  | tickEn =>
    cases hd
    exact .inr (congrArg State.en (writeReg_tickEn s))
  | fwsSet | oscOn | muxSel | tickLoad | freqRec =>
    cases hd
    exact .inl rfl
  | fwsWait | oscWait | muxWait | idle | tglTick => cases hd

/-- Only `rst` clears `EN`. -/
theorem agentMove_en {m : Move} {s t : State} (hm : m ≠ .rst) (h : agentMove m s = .next t)
    (hen : s.en = 1#1) : t.en = 1#1 := by
  by_cases hseq : m = .sequencer
  · subst hseq
    cases agentStep_of_agentMove h with
    | @write i d _ hd =>
      have hchecked : (s.checkedFor i).en = 1#1 := by rw [State.checkedFor_eq, hen]
      exact (State.writeReg_access_en hd).elim (·.trans hchecked) id
    | poll | idle | illegal | disabled => exact hen
  · exact ((agentMove_onlyOwnerWrote hm h).sequencer hseq).en.trans hen

theorem State.QuietUntilEnabled.agentMove {m : Move} {s t : State} (h : s.QuietUntilEnabled)
    (hmove : agentMove m s = .next t) : t.QuietUntilEnabled := by
  have hstep := agentStep_of_agentMove hmove
  by_cases hrst : m = .rst
  · subst hrst
    obtain rfl := Host.Outcome.next.inj hmove
    exact .inr ⟨rfl, nofun⟩
  by_cases hen : s.en = 1#1
  · exact .inl (agentMove_en hrst hmove hen)
  obtain ⟨hpending, hquiet⟩ := h.resolve_left hen
  by_cases htimer : m = .tickTimer
  · subst htimer
    cases hstep with
    | tickFire henabled => exact absurd (s.tickFireEnabled_iff.mp henabled) hen
    | disabled => exact h
  by_cases htoggler : m = .toggler
  · subst htoggler
    cases hstep with
    | tick hone =>
      rw [hpending] at hone
      exact absurd hone (by decide)
    | disabled => exact h
  refine .inr ⟨((agentMove_onlyOwnerWrote hrst hmove).pending htimer htoggler).trans hpending, ?_⟩
  rcases hstep.appends_event hrst with htrace | ⟨e, he, htrace⟩ <;> rw [htrace]
  · exact hquiet
  · intro f hf
    rcases List.mem_append.mp hf with hold | hnew
    · exact hquiet f hold
    · obtain rfl := List.mem_singleton.mp hnew
      refine ⟨?_, Bool.eq_false_iff.mpr fun htick => htoggler (he.symm.trans (Event.agent_of_isTick htick))⟩
      rintro rfl
      exact htimer he.symm

/-- Settles O53: while `EN` is 0 the timer does not fire, so nothing is pending for the toggler. -/
theorem noTickBeforeEnable : Obligations.NoTickBeforeEnable := by
  intro s t h hstep
  have hpop : s.popMove.QuietUntilEnabled := by simpa [State.QuietUntilEnabled] using h
  exact hpop.agentMove (move_eq_next.mp hstep).2.2

/-! ### Firings are serviced (R127) -/

theorem State.FiringsServiced.tickFire {s : State} (h : s.FiringsServiced) : s.tickFire.FiringsServiced := by
  intro hno
  have range : ∀ b : BitVec 1, b = 0#1 ∨ b = 1#1 := by decide
  rcases range s.tickPending with hpending | hpending
  · have hcount : s.trace.countP Event.isFire = s.ticksServiced + s.tickPending.toNat := by
      rw [s.tickFire_of_not_pending hpending] at hno
      exact h hno
    rw [hpending] at hcount
    simp [State.ticksServiced, Event.isFire, Event.isTick, hcount]
  · rw [s.tickFire_of_pending hpending] at hno
    exact absurd ((s.mem_raise_faults _ _).mpr (.inr rfl)) (hno s.tickCount)

theorem State.FiringsServiced.takeTick {s : State} (h : s.FiringsServiced) (hpending : s.tickPending = 1#1) :
    s.takeTick.FiringsServiced := by
  intro hno
  rw [State.takeTick_faults] at hno
  have hcount := h hno
  rw [hpending] at hcount
  have hfire : s.takeTick.trace.countP Event.isFire = s.trace.countP Event.isFire :=
    (AgentStep.tick hpending).countP_trace Event.agent_of_isFire nofun nofun
  rw [hfire, hcount, s.takeTick_ticksServiced, s.takeTick_tickPending]
  rfl

theorem State.FiringsServiced.agentMove {m : Move} {s t : State} (h : s.FiringsServiced)
    (hmove : agentMove m s = .next t) : t.FiringsServiced := by
  have hstep := agentStep_of_agentMove hmove
  by_cases hrst : m = .rst
  · subst hrst
    obtain rfl := Host.Outcome.next.inj hmove
    exact fun _ => rfl
  by_cases htimer : m = .tickTimer
  · subst htimer
    cases hstep with
    | tickFire => exact h.tickFire
    | disabled => exact h
  by_cases htoggler : m = .toggler
  · subst htoggler
    cases hstep with
    | tick hpending => exact h.takeTick hpending
    | disabled => exact h
  intro hno
  rw [State.ticksServiced, hstep.countP_trace Event.agent_of_isFire hrst htimer,
    hstep.countP_trace Event.agent_of_isTick hrst htoggler,
    (agentMove_onlyOwnerWrote hrst hmove).pending htimer htoggler]
  exact h fun c hc => hno c (hstep.keeps_marks hrst _ hc)

/-- Settles O57: a firing makes the one pending tick or adds the mark, and the toggler turns the pending tick
into a serviced one. -/
theorem firingsAreServiced : Obligations.FiringsAreServiced := by
  intro s t h hstep
  have hpop : s.popMove.FiringsServiced := by
    simpa [State.FiringsServiced, State.ticksServiced] using h
  exact hpop.agentMove (move_eq_next.mp hstep).2.2

/-! ### The output mirrors `pin_state` (R98) -/

theorem State.takeTick_out (s : State) :
    s.takeTick.out = if s.togglesNext then ~~~s.pinState else s.out := by
  rw [State.takeTick_eq]

theorem State.Mirrors.takeTick {s : State} (h : s.Mirrors) : s.takeTick.Mirrors := by
  unfold State.Mirrors at h ⊢
  rw [s.takeTick_toggles, s.takeTick_pinState, s.takeTick_out]
  cases s.togglesNext with
  | true => exact (if_neg (Nat.succ_ne_zero s.toggles)).mpr rfl
  | false => exact h

theorem State.Mirrors.of_same {s t : State} (h : s.Mirrors) (hsame : SameTogglerState s t)
    (htoggles : t.toggles = s.toggles) : t.Mirrors := by
  unfold State.Mirrors at h ⊢
  rw [htoggles, hsame.pinState, hsame.out]
  exact h

theorem State.Mirrors.agentMove {m : Move} {s t : State} (h : s.Mirrors)
    (hmove : agentMove m s = .next t) : t.Mirrors := by
  have hstep := agentStep_of_agentMove hmove
  by_cases hrst : m = .rst
  · subst hrst
    obtain rfl := Host.Outcome.next.inj hmove
    rfl
  by_cases htoggler : m = .toggler
  · subst htoggler
    cases hstep with
    | tick => exact h.takeTick
    | disabled => exact h
  exact h.of_same ((agentMove_onlyOwnerWrote hrst hmove).toggler htoggler)
    (hstep.countP_trace Event.agent_of_isToggle hrst htoggler)

/-- Settles O58: a toggle drives the output to the new record, and nobody else writes either. -/
theorem mirrorIsKept : Obligations.MirrorIsKept := by
  intro s t h hstep
  have hpop : s.popMove.Mirrors := h.of_same (by simp) (congrArg (List.countP _) s.popMove_trace)
  exact hpop.agentMove (move_eq_next.mp hstep).2.2

/-! ### The reset state (R38) -/

/-- The invariants hold at reset, whatever the schedule and the draws. -/
theorem resetWith_invariants {p : Params} (hp : p.WellFormed) (level : BitVec 1) (ms : List Move) (n : Nat) :
    let s := { State.resetWith p level with moves := ms, draws := n }
    s.InOrder ∧ s.TraceTellsCode ∧ s.CountingLaw ∧ s.Mirrors ∧ s.QuietUntilEnabled ∧ s.FiringsServiced :=
  ⟨{ State.resetWith_inOrder hp level with }, rfl,
    { (State.resetWith p level).applyReset_countingLaw with }, rfl, .inr ⟨rfl, nofun⟩, fun _ => rfl⟩

/-- Settles O44: `State.reset` is a reset state of the reference instantiation, one draw taken. -/
theorem resetEstablishesInvariants : Obligations.ResetEstablishesInvariants :=
  ⟨fun _ level hp => resetWith_invariants hp level [] 0, ⟨_, rfl⟩,
    resetWith_invariants (by decide) (pinResetLevel 0) [] 1⟩

end Sys2Proof.Machine

/-! Steps, refusals and frames (spec/00_scope.md R12; spec/20_memory.md R42 to R49; spec/30_encoding.md R58, R62,
R63; spec/60_exceptions.md R108, R111, R118): in a state that runs, a step is its agent's; elsewhere it is
refused with its marks; and an operation touches no more than its own registers. -/

namespace Sys2Proof.Machine

open Sys2Proof.Config

/-! ### A step runs its agent's operation (R58, R108) -/

theorem State.Runs.popMove {s : State} (h : s.Runs) : s.popMove.Runs :=
  ⟨by simpa using h.params, by simpa [State.reservedFields] using h.fields⟩

theorem State.Runs.step_eq {s : State} (h : s.Runs) : step s = agentMove s.nextMove s.popMove :=
  h.popMove.move_eq _

/-- Settles O3: the step is the sequencer's, and its code decodes to the operation. -/
theorem stepRunsSequencerOperation : Obligations.StepRunsSequencerOperation := by
  intro s i h hnext hcode
  rw [h.step_eq, hnext]
  exact sequencerMove_of_encode (s.popMove_seqState.symm ▸ hcode)

/-- Settles O4: the step is the toggler's, which looks at `tick_pending` alone. -/
theorem stepRunsTogglerOperation : Obligations.StepRunsTogglerOperation := by
  intro s h hnext
  rw [h.step_eq, hnext, ← s.popMove_tickPending]
  rfl

/-- The low five bits of a table word that holds an id are that id (R55). -/
theorem State.withFetchWord_encode (s : State) (i : Instr) :
    s.withFetchWord 8 (encode i).toNat = s.place (encode i) := by
  cases i <;> rfl

/-- An operation of the sequencer is placed by its code, the sequencer moving next. -/
theorem State.place_encode_of_ne (s : State) {i : Instr} (hi : i ≠ .tglTick) :
    s.place (encode i) = { s with seqState := idCode (encode i), moves := .sequencer :: s.moves } := by
  cases i with
  | tglTick => exact absurd rfl hi
  | _ => rfl

theorem encode_eq_mkId {i : Instr} (hi : i ≠ .tglTick) : encode i = mkId 0#1 (idCode (encode i)) := by
  cases i with
  | tglTick => exact absurd rfl hi
  | _ => rfl

/-- Settles O5: the placed move is taken from the schedule again, and its agent runs the placed
operation. -/
theorem placedOperationRunsNext : Obligations.PlacedOperationRunsNext := by
  intro i s h
  rw [s.withFetchWord_encode]
  by_cases hi : i = .tglTick
  · subst hi
    have hplaced : State.Runs { s with tickPending := 1#1 } := ⟨h.params, h.fields⟩
    exact hplaced.move_eq .toggler
  · rw [s.place_encode_of_ne hi, if_neg hi]
    have hplaced : State.Runs { s with seqState := idCode (encode i) } := ⟨h.params, h.fields⟩
    exact (hplaced.move_eq .sequencer).trans (sequencerMove_of_encode (encode_eq_mkId hi))

/-- Settles O7: `rst` is refused in no state, and what it answers is the reset state but for the model's own
fields. -/
theorem rstFromAnyState : Obligations.RstFromAnyState :=
  fun _ hp => ⟨_, move_eq_next.mpr ⟨hp, .inl rfl, rfl⟩, rfl, rfl⟩

/-! ### Host reads (R42, R44, R49, R118) -/

theorem State.regRead_offset (s : State) (r : Reg) : s.regRead r.offset = some (s.readReg r) := by
  rw [State.regRead, Reg.ofOffset_offset, Option.map_some]

theorem State.hostRead_of_some {s : State} {off : BitVec 8} {v : Word} (h : s.regRead off = some v) :
    s.hostRead off = s.emit (.hostRead off v) := by
  simp only [State.hostRead, h]

theorem State.hostRead_of_none {s : State} {off : BitVec 8} (h : s.regRead off = none) :
    s.hostRead off = s.raise (.reservedAccess (.offset off)) := by
  simp only [State.hostRead, h]

/-- Settles O11: the offset of a register reads its word, and the read is one event. -/
theorem hostReadHasNoEffect : Obligations.HostReadHasNoEffect := by
  intro s r h
  have hword := s.regRead_offset r
  exact ⟨hword, (h.move_eq _).trans (congrArg Host.Outcome.next (State.hostRead_of_some hword))⟩

/-- Settles O12: such an offset is none of the map's, so the read is one mark. -/
theorem badHostReadIsMarked : Obligations.BadHostReadIsMarked := by
  intro s off h hoff
  have hnone : s.regRead off = none :=
    (s.regRead_eq_none_iff off).mpr ((Reg.ofOffset_eq_none_iff off).mpr hoff)
  refine ⟨hnone, _, h.move_eq _, ?_⟩
  rw [State.hostRead_of_none hnone]
  exact ⟨rfl, s.mem_raise_faults _⟩

/-! ### Moves without a step (R62) -/

theorem AgentStep.eq_of_disabled {m : Move} {s t : State} (h : AgentStep s m t) (hm : m ≠ .sequencer)
    (hdisabled : s.enabled m = false) : t = s := by
  cases h with
  | write | poll | idle | illegal => exact absurd rfl hm
  | tick hpending => exact absurd hpending (beq_eq_false_iff_ne.mp hdisabled)
  | flashLatch henabled | oscReady henabled | muxSwitch henabled | tickFire henabled =>
    exact absurd henabled (Bool.eq_false_iff.mp hdisabled)
  | hostRead | rst => cases hdisabled
  | disabled => rfl

/-- Settles O33: the sequencer's mark for a code without an operation, and the step of a disabled agent. -/
theorem movesWithoutStep : Obligations.MovesWithoutStep := by
  refine ⟨fun s h hill => ⟨_, (h.move_eq _).trans (sequencerMove_of_illegal hill), rfl,
    s.mem_raise_faults _⟩, fun a s _ hseq h hdisabled => ?_⟩
  obtain ⟨t, ht⟩ := agentMove_next a s
  obtain rfl := (agentStep_of_agentMove ht).eq_of_disabled hseq hdisabled
  exact (h.move_eq a).trans ht

/-! ### Refusals (R12, R63) -/

theorem mem_problems_iff {p : Params} {c : ParamCheck} : c ∈ p.problems ↔ c.holds p = false := by
  have hall : c ∈ ParamCheck.all := by cases c <;> decide
  simp [Params.problems, hall]

theorem move_of_illFormed {s : State} (h : ¬ s.params.WellFormed) (m : Move) :
    move m s = .refused (.illFormedParams s.params.problems) := if_pos h

theorem move_of_reserved {m : Move} {s : State} (hp : s.params.WellFormed) (hm : m ≠ .rst)
    (h : s.reservedFields ≠ []) : move m s = .refused (.reservedFieldValues (s.refuseMarked m)) :=
  move_eq_refused_marked.mpr ⟨hp, hm, h, rfl⟩

/-- The marks of the reserved fields are those of the fields that hold a reserved value (R105). -/
theorem State.mem_reservedMarks {s : State} {k : Mark} :
    k ∈ s.reservedMarks ↔ ∃ f, s.HoldsReserved f ∧ k = .reservedAccess (.field f) := by
  simp only [State.reservedMarks, List.mem_map, State.mem_reservedFields, eq_comm]

/-- Settles O18: a state holds a reserved value exactly where `reservedFields` is not empty; there the move is
refused with the marks of the refusal, and elsewhere it is its agent's step. -/
theorem refusedExactlyWhenReserved : Obligations.RefusedExactlyWhenReserved := by
  refine ⟨fun m s h => ⟨_, move_of_illFormed h m, fun _ => mem_problems_iff⟩, fun m s hp hm => ?_⟩
  obtain ⟨u, hu⟩ := agentMove_next m s
  by_cases hfields : s.reservedFields = []
  · have hnone := State.reservedFields_eq_nil_iff.mp hfields
    have hmove : move m s = .next u := move_eq_next.mpr ⟨hp, .inr hfields, hu⟩
    rw [hmove]
    exact ⟨iff_of_false nofun (not_exists.mpr hnone), iff_of_true ⟨u, rfl⟩ hnone, nofun⟩
  · have hsome : ∃ f, s.HoldsReserved f := by
      simpa [State.reservedFields_eq_nil_iff] using hfields
    rw [move_of_reserved hp hm hfields]
    refine ⟨iff_of_true ⟨_, rfl⟩ hsome, iff_of_false nofun (not_forall_not.mpr hsome), ?_⟩
    intro r hr
    refine ⟨_, u, (Host.Outcome.refused.inj hr).symm, hu, s.refuseMarked_eq m, fun k => ?_⟩
    rw [State.mem_refuseMarked_faults hm hu, State.mem_reservedMarks]

/-! ### The frame over the bytes of the registers (R43, R60) -/

theorem State.readReg_writeReg_sequencer_of_ne (s : State) {r q : Reg} (m d : Word) (h : q ≠ r) :
    (s.writeReg .sequencer r m d).readReg q = s.readReg q := by
  by_cases hr : r = .pinBsr
  · subst hr
    rfl
  · apply BitVec.eq_of_getLsbD_eq
    intro b _
    rw [s.getLsbD_readReg_writeReg .sequencer hr, if_neg fun ⟨heq, _⟩ => h heq]

@[simp] theorem State.readReg_checkedFor (s : State) (i : Instr) (q : Reg) :
    (s.checkedFor i).readReg q = s.readReg q := by
  rw [State.checkedFor_eq]
  cases q <;> rfl

theorem State.readReg_takeTick (s : State) {q : Reg} (h : s.togglesNext = true → q ≠ .pinData) :
    s.takeTick.readReg q = s.readReg q := by
  rw [State.takeTick_eq]
  cases q with
  | pinData =>
    rw [Bool.eq_false_iff.mpr fun htoggles => h htoggles rfl]
    rfl
  | _ => rfl

/-- An operation changes no register but the one it stores to. -/
theorem State.readReg_exec {s t : State} {i : Instr} {q : Reg} (h : exec i s = .next t)
    (hq : s.storedRegister i ≠ some q) : t.readReg q = s.readReg q := by
  unfold State.storedRegister at hq
  cases hacc : access s.params i with
  | write d =>
    obtain rfl := Host.Outcome.next.inj ((exec_of_access_write hacc).symm.trans h)
    rw [hacc] at hq
    change ((s.checkedFor i).writeOp (encode i) d).readReg q = _
    rw [State.readReg_writeOp, State.readReg_writeReg_sequencer_of_ne _ _ _ fun e => hq (congrArg some e.symm),
      State.readReg_checkedFor]
  | poll d =>
    obtain rfl := Host.Outcome.next.inj ((exec_of_access_poll hacc).symm.trans h)
    cases q <;> rfl
  | none =>
    cases i with
    | idle =>
      obtain rfl := Host.Outcome.next.inj h
      cases q <;> rfl
    | _ => cases hacc
  | handler =>
    cases i with
    | tglTick =>
      obtain rfl := Host.Outcome.next.inj h
      refine s.readReg_takeTick fun htoggles e => hq ?_
      rw [hacc, htoggles, e]
      rfl
    | _ => cases hacc

/-- Settles O21: a byte is one of the register at its offset, and the offset is not that of the register
stored to. -/
theorem operationsKeepOtherBytes : Obligations.OperationsKeepOtherBytes := by
  intro s t i off h hoff
  unfold State.readByte State.regRead
  cases hreg : Reg.ofOffset (off &&& 0xFC#8) with
  | none => rfl
  | some q =>
    have hq : s.storedRegister i ≠ some q := fun e => hoff q e (Reg.offset_of_ofOffset hreg).symm
    simp only [Option.map_some, State.readReg_exec h hq]

/-! ### A sequencer step and a tick commute (R111) -/

/-- `s` with the fields a serviced tick writes, and the trace, given. -/
def State.setTick (s : State) (count : Word) (pin out : BitVec 1) (tr : List Event) : State :=
  { s with tickCount := count, tickPending := 0#1, pinState := pin, out := out, trace := tr }

/-- Servicing a tick in a state that agrees with `s` on the toggler's fields. -/
theorem State.takeTick_eq_setTick {s a : State} (h : SameTogglerState s a) :
    a.takeTick = a.setTick (s.tickCount + 1#32) s.takeTick.pinState s.takeTick.out
      (a.trace ++ [.tgl (s.tickCount + 1#32) s.togglesNext s.takeTick.pinState]) := by
  have htoggles : a.togglesNext = s.togglesNext := by simp only [State.togglesNext, h.tickCount]
  rw [State.takeTick_eq, State.takeTick_pinState, State.takeTick_out, htoggles, h.tickCount, h.pinState, h.out]
  rfl

section
variable (s : State) (count : Word) (pin out : BitVec 1) (tr : List Event)

theorem State.checkedFor_writeOp_setTick (i : Instr) (op : BitVec 5) (d : WriteAccess) :
    ((s.setTick count pin out tr).checkedFor i).writeOp op d =
      ((s.checkedFor i).writeOp op d).setTick count pin out
        (tr ++ [.write op d.reg.offset d.wmask d.data]) := by
  have hchecked : (s.setTick count pin out tr).checkedFor i = (s.checkedFor i).setTick count pin out tr := by
    unfold State.checkedFor State.checkReady
    split
    · change (if s.hsoscRdy = 0#1 then _ else _) = _
      split <;> rfl
    · rfl
  obtain ⟨r, m, w⟩ := d
  rw [hchecked]
  cases r <;> rfl

/-- No wait reads `PIN_DATA`, the one register a tick writes (R60). -/
theorem State.pollOp_setTick (op : BitVec 5) {d : PollAccess} (hd : d.reg ≠ .pinData) :
    (s.setTick count pin out tr).pollOp op d =
      (s.pollOp op d).setTick count pin out (tr ++ [.read op d.reg.offset (s.readReg d.reg)]) := by
  have hread : (s.setTick count pin out tr).readReg d.reg = s.readReg d.reg := by
    cases hr : d.reg with
    | pinData => exact absurd hr hd
    | _ => rfl
  rw [State.pollOp, hread]
  rfl

theorem access_poll_reg_ne_pinData {p : Params} {i : Instr} {d : PollAccess} (hd : access p i = .poll d) :
    d.reg ≠ .pinData := by
  cases i with
  | fwsWait | oscWait | muxWait =>
    cases hd
    exact nofun
  | _ => cases hd

end

/-- The sequencer neither reads nor writes what a tick writes, so its step is the same around a tick. -/
theorem AgentStep.sequencer_setTick {s a : State} (h : AgentStep s .sequencer a) :
    ∃ es, a.trace = s.trace ++ es ∧ ∀ count pin out tr,
      sequencerMove (s.setTick count pin out tr) = .next (a.setTick count pin out (tr ++ es)) := by
  cases h with
  | @write i d hcode hd =>
    refine ⟨[.write (encode i) d.reg.offset d.wmask d.data], by simp, fun count pin out tr => ?_⟩
    rw [← State.checkedFor_writeOp_setTick]
    exact (sequencerMove_of_encode (s := s.setTick count pin out tr) hcode).trans (exec_of_access_write hd)
  | @poll i d hcode hd =>
    refine ⟨[.read (encode i) d.reg.offset (s.readReg d.reg)], rfl, fun count pin out tr => ?_⟩
    rw [← State.pollOp_setTick s count pin out tr _ (access_poll_reg_ne_pinData hd)]
    exact (sequencerMove_of_encode (s := s.setTick count pin out tr) hcode).trans (exec_of_access_poll hd)
  | idle hcode =>
    refine ⟨[], (List.append_nil _).symm, fun count pin out tr => ?_⟩
    rw [List.append_nil]
    exact sequencerMove_of_idle hcode
  | illegal hcode =>
    refine ⟨[], (List.append_nil _).symm, fun count pin out tr => ?_⟩
    rw [List.append_nil]
    exact sequencerMove_of_illegal hcode
  | disabled hm => exact absurd rfl hm

theorem togglerMove_of_pending {s : State} (h : s.tickPending = 1#1) : togglerMove s = .next s.takeTick :=
  if_pos h

/-- Settles O43: the tick writes the same fields on either side of the sequencer's step, and the two events
change places in the trace. -/
theorem sequencerAndTickCommute : Obligations.SequencerAndTickCommute := by
  intro s hpending
  obtain ⟨a, ha⟩ := agentMove_next .sequencer s
  have own := sequencerMove_onlyOwnerWrote ha
  have hsame : SameTogglerState s a := own.toggler nofun
  have hpending' : a.tickPending = 1#1 := (own.pending nofun nofun).trans hpending
  obtain ⟨es, htrace, hstep⟩ := (agentStep_of_agentMove ha).sequencer_setTick
  have hfirst := State.takeTick_eq_setTick (s := s) (a := s) ⟨rfl, rfl, rfl⟩
  have hlast := State.takeTick_eq_setTick hsame
  refine ⟨a, _, _, _, ha, togglerMove_of_pending hpending', togglerMove_of_pending hpending,
    hfirst ▸ hstep _ _ _ _, ?_, ?_⟩
  · rw [hlast]
    rfl
  · rw [hlast]
    change (a.trace ++ _).Perm ((s.trace ++ _) ++ es)
    rw [htrace, List.append_assoc, List.append_assoc]
    exact List.perm_append_comm.append_left s.trace

end Sys2Proof.Machine

/-! Runs (spec/10_state.md R34; spec/70_reset_and_hazards.md R131 to R134). What holds at reset and is kept by
every move holds in every state of a run. A run leaves a code once the status it awaits is there; weak fairness
brings that status where the hardware answers, and without the hardware it never comes. -/

namespace Sys2Proof.Machine

open Sys2Proof.Config

/-! ### The status a code awaits (R70, R73, R131) -/

/-- The status that lets the sequencer leave its code is there; a write operation awaits none. -/
structure State.Awaited (s : State) : Prop where
  latched : s.seqState = 1#4 → s.wsAct.toNat = s.params.flashWaitCycles
  ready : s.seqState = 3#4 → s.oscillatorReady = true
  switched : s.seqState = 5#4 → s.clockSwitched = true

theorem State.not_awaited {s : State} (h : ¬ s.Awaited) :
    (s.seqState = 1#4 ∧ s.wsAct.toNat ≠ s.params.flashWaitCycles) ∨
    (s.seqState = 3#4 ∧ s.hsoscRdy ≠ 1#1) ∨ (s.seqState = 5#4 ∧ s.sws ≠ 1#2) := by
  by_contra hnone
  simp only [not_or, not_and, not_not] at hnone
  obtain ⟨hlatched, hready, hswitched⟩ := hnone
  exact h ⟨hlatched, fun hc => beq_iff_eq.mpr (hready hc), fun hc => beq_iff_eq.mpr (hswitched hc)⟩

/-- An awaited status stays while the sequencer waits (R73). -/
theorem State.Awaited.move {m : Move} {s t : State} (h : s.Awaited) (horder : s.InOrder) (hm : m ≠ .rst)
    (hmove : move m s = .next t) (hcode : t.seqState = s.seqState) : t.Awaited := by
  obtain ⟨hlatched, hready, hswitched⟩ := awaitedConditionsPersist m s t horder hm hmove
  exact ⟨fun hc => hlatched (h.latched (hcode ▸ hc)), fun hc => hready (h.ready (hcode ▸ hc)),
    fun hc => hswitched (h.switched (hcode ▸ hc))⟩

/-- A wait whose status is there sees the awaited value (R78, R83, R86). -/
theorem State.Awaited.sees {s : State} (h : s.Awaited) (hp : s.params.WellFormed) {i : Instr}
    {d : PollAccess} (hcode : encode i = mkId 0#1 s.seqState) (hd : access s.params i = .poll d) :
    d.sees (s.readReg d.reg) = true := by
  have hc := code_of_encode hcode
  cases i with
  | fwsWait =>
    cases hd
    exact (sees_fwsWait s _ (Params.flashWaitCycles_le hp)).mpr (h.latched hc)
  | oscWait =>
    cases hd
    exact (sees_oscWait s).mpr (beq_iff_eq.mp (h.ready hc))
  | muxWait =>
    cases hd
    exact (sees_muxWait s).mpr (beq_iff_eq.mp (h.switched hc))
  | _ => cases hd

/-- The sequencer leaves its code when the awaited status is there (R67, R68). -/
theorem State.Awaited.code_succ {s t : State} (h : s.Awaited) (hp : s.params.WellFormed)
    (hle : s.seqState.toNat ≤ 8) (hstep : AgentStep s .sequencer t) : t.seqState = s.seqState + 1 := by
  cases hstep with
  | write hcode _ => rw [State.writeOp_seqState, code_of_encode hcode]
  | poll hcode hd => rw [State.pollOp_seqState, if_pos (h.sees hp hcode hd), code_of_encode hcode]
  | idle hcode => exact absurd (hcode ▸ hle) (by decide)
  | illegal hcode => omega
  | disabled hm => exact absurd rfl hm

/-- The agent that brings the status a wait code awaits (R79, R84, R87). -/
def awaitedAgent (code : BitVec 4) : Move :=
  if code = 1#4 then .flashController else if code = 3#4 then .oscillator else .multiplexer

theorem awaitedAgent_mem_agents : ∀ code : BitVec 4, awaitedAgent code ∈ agents := by
  decide

/-- While the awaited status is not there, the agent that brings it is enabled, if the hardware answers, and
its step brings it. -/
theorem State.InOrder.awaitedAgent_brings {s : State} (h : s.InOrder) (hw : HardwareAnswers s.params)
    (hwait : ¬ s.Awaited) : s.enabled (awaitedAgent s.seqState) = true ∧
      ∀ t, agentMove (awaitedAgent s.seqState) s = .next t → t.Awaited := by
  obtain ⟨hosc, hmux, hflash⟩ := hw
  rcases State.not_awaited hwait with ⟨hc, hact⟩ | ⟨hc, hrdy⟩ | ⟨hc, hsws⟩
  · have hreq : s.wsReq.toNat = s.params.flashWaitCycles := (h.withCode hc).wsReq
    have hne : s.wsAct ≠ s.wsReq := fun e => hact (e ▸ hreq)
    have hcount : s.params.flashWaitCycles ≠ 0 := by
      intro hzero
      rw [(h.wsAct.resolve_right hne), hzero] at hact
      exact hact rfl
    have henabled := s.flashLatchEnabled_iff.mpr ⟨hflash.resolve_right hcount, hne⟩
    rw [hc]
    refine ⟨henabled, fun t ht => ?_⟩
    obtain rfl := Host.Outcome.next.inj ((agentMove_flashController_of_enabled henabled).symm.trans ht)
    exact ⟨fun _ => hreq, fun e => absurd (hc.symm.trans e) (by decide),
      fun e => absurd (hc.symm.trans e) (by decide)⟩
  · have bit : ∀ b : BitVec 1, b ≠ 1#1 → b = 0#1 := by decide
    have henabled := s.oscReadyEnabled_iff.mpr ⟨hosc, (h.withCode hc).hsoscOn, bit _ hrdy⟩
    rw [hc]
    refine ⟨henabled, fun t ht => ?_⟩
    obtain rfl := Host.Outcome.next.inj ((agentMove_oscillator_of_enabled henabled).symm.trans ht)
    exact ⟨fun e => absurd (hc.symm.trans e) (by decide), fun _ => rfl,
      fun e => absurd (hc.symm.trans e) (by decide)⟩
  · have hsw : s.sw = 1#2 := (h.withCode hc).sw
    have hready : s.hsoscRdy = 1#1 := (h.withCode hc).ready (by decide : 4 ≤ 5)
    have henabled := s.muxSwitchEnabled_iff.mpr
      ⟨hmux, hsw ▸ hsws, hsw ▸ by decide, hsw ▸ s.srcReady_one.mpr hready⟩
    rw [hc]
    refine ⟨henabled, fun t ht => ?_⟩
    obtain rfl := Host.Outcome.next.inj ((agentMove_multiplexer_of_enabled henabled).symm.trans ht)
    have hcode : s.muxSwitch.seqState = 5#4 := s.muxSwitch_seqState.trans hc
    exact ⟨fun e => absurd (hcode.symm.trans e) (by decide), fun e => absurd (hcode.symm.trans e) (by decide),
      fun _ => beq_iff_eq.mpr hsw⟩

/-! ### Every state of a run (R122) -/

section
variable {p : Params} {level : BitVec 1} {r : Nat → State} {m : Nat → Move} (run : IsRun p level r m)
include run

theorem IsRun.agentMove (n : Nat) : agentMove (m n) (r n) = .next (r (n + 1)) :=
  (move_eq_next.mp (run.steps n)).2.2

theorem IsRun.params_eq (n : Nat) : (r n).params = p := by
  induction n with
  | zero => exact run.start ▸ rfl
  | succ n ih => exact (agentMove_onlyOwnerWrote (run.moves n) (run.agentMove n)).model.params.trans ih

theorem IsRun.inOrder (n : Nat) : (r n).InOrder := by
  induction n with
  | zero => exact run.start ▸ State.resetWith_inOrder run.params level
  | succ n ih => exact ih.agentStep (agentStep_of_agentMove (run.agentMove n))

theorem IsRun.traceTellsCode (n : Nat) : (r n).TraceTellsCode := by
  induction n with
  | zero =>
    rw [run.start]
    rfl
  | succ n ih => exact ih.agentMove (run.agentMove n)

/-- A status stays at its reset value when the one agent that writes it is never enabled (R36). -/
theorem IsRun.status_eq_reset {α : Type} {status : State → α} {a : Move} (ha : a ≠ .sequencer)
    (howner : ∀ {k : Move} {s t : State}, OnlyOwnerWrote k s t → k ≠ a → status t = status s)
    (hdisabled : ∀ n, (r n).enabled a = false) (n : Nat) :
    status (r n) = status (State.resetWith p level) := by
  induction n with
  | zero => rw [run.start]
  | succ n ih =>
    rw [← ih]
    by_cases hm : m n = a
    · rw [(agentStep_of_agentMove (run.agentMove n)).eq_of_disabled (hm ▸ ha) (hm ▸ hdisabled n)]
    · exact howner (agentMove_onlyOwnerWrote (run.moves n) (run.agentMove n)) hm

end

/-- Settles O60: without its hardware a status keeps its reset value, which is not the one that has to hold
past its wait. -/
theorem deadHardwareHangs : Obligations.DeadHardwareHangs := by
  intro p level r m run n
  have horder := run.inOrder n
  refine ⟨fun hdead hcount => ?_, fun hdead => ?_, fun hdead => ?_⟩ <;> by_contra hcode
  · have hzero : (r n).wsAct = 0#3 := run.status_eq_reset (a := .flashController) nofun
      (fun own hm => own.wsAct hm)
      (fun k => by simp [State.enabled, State.flashLatchEnabled, run.params_eq, hdead]) n
    have hact := horder.wsAct_of_code (by omega)
    rw [hzero, run.params_eq] at hact
    exact hcount hact.symm
  · have hzero : (r n).hsoscRdy = 0#1 := run.status_eq_reset (a := .oscillator) nofun
      (fun own hm => own.hsoscRdy hm)
      (fun k => by simp [State.enabled, State.oscReadyEnabled, run.params_eq, hdead]) n
    exact absurd (hzero.symm.trans (horder.ready (by omega))) (by decide)
  · have hzero : (r n).sws = 0#2 := run.status_eq_reset (a := .multiplexer) nofun
      (fun own hm => own.sws hm)
      (fun k => by simp [State.enabled, State.muxSwitchEnabled, run.params_eq, hdead]) n
    exact absurd (hzero.symm.trans (horder.switched (by omega))) (by decide)

/-! ### Fair runs complete (R133, R134) -/

section
variable {p : Params} {level : BitVec 1} {r : Nat → State} {m : Nat → Move} (run : IsRun p level r m)
  (fair : WeaklyFair r m) (hw : HardwareAnswers p)
include run fair hw

/-- A run that stays in a code gets the status the code awaits: the agent that brings it would else stay
enabled. -/
theorem IsRun.exists_awaited {n : Nat} {c : BitVec 4} (hstay : ∀ k, n ≤ k → (r k).seqState = c) :
    ∃ k, n ≤ k ∧ (r k).Awaited := by
  by_contra hno
  simp only [not_exists, not_and] at hno
  have hbrings : ∀ k, n ≤ k → (r k).enabled (awaitedAgent c) = true ∧
      ∀ t, Sys2Proof.Machine.agentMove (awaitedAgent c) (r k) = .next t → t.Awaited := fun k hk =>
    hstay k hk ▸ (run.inOrder k).awaitedAgent_brings ((run.params_eq k).symm ▸ hw) (hno k hk)
  obtain ⟨k, hk, hmove⟩ := fair (awaitedAgent c) (awaitedAgent_mem_agents c) n fun k hk => (hbrings k hk).1
  exact hno (k + 1) (Nat.le_succ_of_le hk) ((hbrings k hk).2 _ (hmove ▸ run.agentMove k))

/-- Every code below 9 is left for the next one. -/
theorem IsRun.reaches_next_code {n : Nat} {c : BitVec 4} (hcode : (r n).seqState = c) (hle : c.toNat ≤ 8) :
    ∃ k, (r k).seqState = c + 1 := by
  by_contra hno
  simp only [not_exists] at hno
  have hstay : ∀ k, n ≤ k → (r k).seqState = c := by
    intro k hk
    induction k, hk using Nat.le_induction with
    | base => exact hcode
    | succ k _ ih =>
      obtain ⟨_, _, _, _, hskip⟩ := sequencerNeverSkips
      rcases hskip (m k) (r k) _ (run.moves k) (run.steps k) with hsame | ⟨_, _, hnext⟩
      · exact hsame.trans ih
      · exact absurd (hnext.trans (by rw [ih])) (hno (k + 1))
  obtain ⟨j, hj, hawaited⟩ := run.exists_awaited fair hw hstay
  have hkept : ∀ k, j ≤ k → (r k).Awaited := by
    intro k hk
    induction k, hk using Nat.le_induction with
    | base => exact hawaited
    | succ k hk ih =>
      refine ih.move (run.inOrder k) (run.moves k) (run.steps k) ?_
      rw [hstay (k + 1) (by omega), hstay k (by omega)]
  obtain ⟨k, hk, hmove⟩ := fair .sequencer (by decide) j fun k _ => decide_eq_true (run.inOrder k).code
  have hc := hstay k (hj.trans hk)
  have hnext := (hkept k hk).code_succ (run.inOrder k).params (hc ▸ hle)
    (hmove ▸ agentStep_of_agentMove (run.agentMove k))
  exact hno (k + 1) (hnext.trans (by rw [hc]))

theorem IsRun.reaches_code (c : Nat) (hle : c ≤ 9) : ∃ k, (r k).seqState = BitVec.ofNat 4 c := by
  induction c with
  | zero => exact ⟨0, run.start ▸ rfl⟩
  | succ c ih =>
    obtain ⟨n, hn⟩ := ih (by omega)
    have hcode : (BitVec.ofNat 4 c).toNat ≤ 8 := by
      rw [BitVec.toNat_ofNat]
      omega
    obtain ⟨k, hk⟩ := run.reaches_next_code fair hw hn hcode
    exact ⟨k, hk.trans (BitVec.ofNat_add c 1).symm⟩

end

/-- Settles O59: the run reaches code 9, and its first state there is in order and has a trace that tells
it. -/
theorem fairRunsComplete : Obligations.FairRunsComplete := by
  intro p level r m run fair hw
  obtain ⟨n, hn⟩ := run.reaches_code fair hw 9 le_rfl
  have hdone : ∃ k, (r k).cfgDone = true := ⟨n, (r n).cfgDone_iff.mpr hn⟩
  refine ⟨Nat.find hdone, fun k hk => Bool.eq_false_iff.mpr (Nat.find_min hdone hk), ?_,
    run.traceTellsCode _⟩
  obtain ⟨hcomplete, _⟩ := doneMeansComplete _ (run.inOrder _) (Nat.find_spec hdone)
  exact hcomplete

end Sys2Proof.Machine
